-- ==== Sys2Proof/Word.lean ====
section
/-! DEFINITION. The word types of MV32: a Word is 32 bits (spec/00_scope.md R6, R9), a byte 8 bits, a register
index 5 bits (spec/10_state.md R20, R22). -/

namespace Sys2Proof

/-- A Word: "a 32-bit unsigned integer" (spec/00_scope.md R6, R9); an address is a Word (R50). -/
abbrev Word := BitVec 32

/-- One byte of the memory image (spec/20_memory.md R50). -/
abbrev Byte := BitVec 8

/-- A general register's number: always a 5-bit field, so always in 0..31 (spec/10_state.md R22). -/
abbrev RegIdx := BitVec 5

end Sys2Proof
end

