-- ==== Sys2Proof/Syntax.lean ====
section
/-! DEFINITION. The instructions of MV32 as syntax. `Instr` has one constructor for each of the 91 rows of
spec/opcode_table.json: a row is a mnemonic in one format (`R` register form, `I` immediate form), for MFSR and MTSR with one CSR.
Below it stand the operand forms the meanings share, and the source lines of the spec's assembler (R94-R96). -/

namespace Sys2Proof

/-- The decoded instruction (spec/30_encoding.md R90), one constructor per row of the opcode table. The
suffix `R` is format R (m = 0, second operand `x[rs2]`), the suffix `I` format I (m = 1, second operand `sext_15(imm15)`).
Each field has exactly the width of its place in the word, and a constrained field (R85) is no argument, so every term
is a word's instruction. -/
inductive Instr where
  -- Arithmetic family (spec/30_encoding.md R80; rows 0-30 of the opcode table).
  | addR (rd : RegIdx) (rs1 : RegIdx) (rs2 : RegIdx)
  | addI (rd : RegIdx) (rs1 : RegIdx) (imm15 : BitVec 15)
  | subR (rd : RegIdx) (rs1 : RegIdx) (rs2 : RegIdx)
  | subI (rd : RegIdx) (rs1 : RegIdx) (imm15 : BitVec 15)
  | andR (rd : RegIdx) (rs1 : RegIdx) (rs2 : RegIdx)
  | andI (rd : RegIdx) (rs1 : RegIdx) (imm15 : BitVec 15)
  | orR (rd : RegIdx) (rs1 : RegIdx) (rs2 : RegIdx)
  | orI (rd : RegIdx) (rs1 : RegIdx) (imm15 : BitVec 15)
  | xorR (rd : RegIdx) (rs1 : RegIdx) (rs2 : RegIdx)
  | xorI (rd : RegIdx) (rs1 : RegIdx) (imm15 : BitVec 15)
  | shlR (rd : RegIdx) (rs1 : RegIdx) (rs2 : RegIdx)
  | shlI (rd : RegIdx) (rs1 : RegIdx) (imm15 : BitVec 15)
  | shrR (rd : RegIdx) (rs1 : RegIdx) (rs2 : RegIdx)
  | shrI (rd : RegIdx) (rs1 : RegIdx) (imm15 : BitVec 15)
  | sarR (rd : RegIdx) (rs1 : RegIdx) (rs2 : RegIdx)
  | sarI (rd : RegIdx) (rs1 : RegIdx) (imm15 : BitVec 15)
  | mulR (rd : RegIdx) (rs1 : RegIdx) (rs2 : RegIdx)
  | mulI (rd : RegIdx) (rs1 : RegIdx) (imm15 : BitVec 15)
  | divR (rd : RegIdx) (rs1 : RegIdx) (rs2 : RegIdx)
  | divI (rd : RegIdx) (rs1 : RegIdx) (imm15 : BitVec 15)
  | divuR (rd : RegIdx) (rs1 : RegIdx) (rs2 : RegIdx)
  | divuI (rd : RegIdx) (rs1 : RegIdx) (imm15 : BitVec 15)
  | remR (rd : RegIdx) (rs1 : RegIdx) (rs2 : RegIdx)
  | remI (rd : RegIdx) (rs1 : RegIdx) (imm15 : BitVec 15)
  | remuR (rd : RegIdx) (rs1 : RegIdx) (rs2 : RegIdx)
  | remuI (rd : RegIdx) (rs1 : RegIdx) (imm15 : BitVec 15)
  | cmpR (rs1 : RegIdx) (rs2 : RegIdx)
  | cmpI (rs1 : RegIdx) (imm15 : BitVec 15)
  | tstR (rs1 : RegIdx) (rs2 : RegIdx)
  | tstI (rs1 : RegIdx) (imm15 : BitVec 15)
  | lui (rd : RegIdx) (imm21 : BitVec 21)
  -- Memory family (R81; rows 31-54). In the stores `rd` is the data register (spec/41_memory_ops.md R131).
  | ldbR (rd : RegIdx) (rs1 : RegIdx) (rs2 : RegIdx)
  | ldbI (rd : RegIdx) (rs1 : RegIdx) (imm15 : BitVec 15)
  | ldbuR (rd : RegIdx) (rs1 : RegIdx) (rs2 : RegIdx)
  | ldbuI (rd : RegIdx) (rs1 : RegIdx) (imm15 : BitVec 15)
  | ldhR (rd : RegIdx) (rs1 : RegIdx) (rs2 : RegIdx)
  | ldhI (rd : RegIdx) (rs1 : RegIdx) (imm15 : BitVec 15)
  | ldhuR (rd : RegIdx) (rs1 : RegIdx) (rs2 : RegIdx)
  | ldhuI (rd : RegIdx) (rs1 : RegIdx) (imm15 : BitVec 15)
  | ldwR (rd : RegIdx) (rs1 : RegIdx) (rs2 : RegIdx)
  | ldwI (rd : RegIdx) (rs1 : RegIdx) (imm15 : BitVec 15)
  | stbR (rd : RegIdx) (rs1 : RegIdx) (rs2 : RegIdx)
  | stbI (rd : RegIdx) (rs1 : RegIdx) (imm15 : BitVec 15)
  | sthR (rd : RegIdx) (rs1 : RegIdx) (rs2 : RegIdx)
  | sthI (rd : RegIdx) (rs1 : RegIdx) (imm15 : BitVec 15)
  | stwR (rd : RegIdx) (rs1 : RegIdx) (rs2 : RegIdx)
  | stwI (rd : RegIdx) (rs1 : RegIdx) (imm15 : BitVec 15)
  | ldba (rd : RegIdx) (imm21 : BitVec 21)
  | ldbua (rd : RegIdx) (imm21 : BitVec 21)
  | ldha (rd : RegIdx) (imm21 : BitVec 21)
  | ldhua (rd : RegIdx) (imm21 : BitVec 21)
  | ldwa (rd : RegIdx) (imm21 : BitVec 21)
  | stba (rd : RegIdx) (imm21 : BitVec 21)
  | stha (rd : RegIdx) (imm21 : BitVec 21)
  | stwa (rd : RegIdx) (imm21 : BitVec 21)
  -- Branch family (R82; rows 55-73).
  | beq (imm22 : BitVec 22)
  | bne (imm22 : BitVec 22)
  | blo (imm22 : BitVec 22)
  | bhs (imm22 : BitVec 22)
  | bmi (imm22 : BitVec 22)
  | bpl (imm22 : BitVec 22)
  | bvs (imm22 : BitVec 22)
  | bvc (imm22 : BitVec 22)
  | bhi (imm22 : BitVec 22)
  | bls (imm22 : BitVec 22)
  | bge (imm22 : BitVec 22)
  | blt (imm22 : BitVec 22)
  | bgt (imm22 : BitVec 22)
  | ble (imm22 : BitVec 22)
  | bal (imm22 : BitVec 22)
  | jal (rd : RegIdx) (imm21 : BitVec 21)
  | jalrR (rd : RegIdx) (rs1 : RegIdx) (rs2 : RegIdx)
  | jalrI (rd : RegIdx) (rs1 : RegIdx) (imm15 : BitVec 15)
  | jala (rd : RegIdx) (imm21 : BitVec 21)
  -- System family (R83; rows 74-90).
  | halt
  | swi (imm15 : BitVec 15)
  | rti
  | mfsrStatus (rd : RegIdx)
  | mfsrCause (rd : RegIdx)
  | mfsrEaddr (rd : RegIdx)
  | mfsrEpc (rd : RegIdx)
  | mfsrEflags (rd : RegIdx)
  | mfsrFlags (rd : RegIdx)
  | mfsrIpend (rd : RegIdx)
  | mtsrStatus (rs1 : RegIdx)
  | mtsrCause (rs1 : RegIdx)
  | mtsrEaddr (rs1 : RegIdx)
  | mtsrEpc (rs1 : RegIdx)
  | mtsrEflags (rs1 : RegIdx)
  | mtsrFlags (rs1 : RegIdx)
  | nop
deriving DecidableEq, Repr

/-- The second operand of an RI instruction (spec/30_encoding.md R76, R90): a register or a 15-bit immediate. -/
inductive Src2 where
  | reg (rs2 : RegIdx)
  | imm (imm15 : BitVec 15)
deriving DecidableEq, Repr

/-- The address of a load or store (spec/30_encoding.md R90, spec/41_memory_ops.md R130). -/
inductive MemAddr where
  | base (rs1 : RegIdx) (src : Src2)
  | abs (imm21 : BitVec 21)
deriving DecidableEq, Repr

/-- An access width: 1, 2 or 4 bytes (spec/20_memory.md R52). -/
inductive Width where
  | byte
  | half
  | word
deriving DecidableEq, Repr

/-- How a load extends the value read to 32 bits (spec/30_encoding.md R89, R90). -/
inductive Ext where
  | sign
  | zero
  | none
deriving DecidableEq, Repr

/-- The conditions of Bcc, cond 0..14 (spec/30_encoding.md R91); 15 is reserved and does not decode. -/
inductive Cond where
  | eq | ne | lo | hs | mi | pl | vs | vc | hi | ls | ge | lt | gt | le | al
deriving DecidableEq, Repr

/-- The control and status registers, numbers 0..6 (spec/10_state.md R29, spec/30_encoding.md R92). -/
inductive Csr where
  | status | cause | eaddr | epc | eflags | flags | ipend
deriving DecidableEq, Repr

/-! ### Source lines of the spec's assembler (spec/30_encoding.md R94-R96) -/

/-- The arithmetic operations with a destination (spec/30_encoding.md R90 `aop`). -/
inductive Aop where
  | add | sub | and | or | xor | shl | shr | sar | mul | div | divu | rem | remu
deriving DecidableEq, Repr

/-- The five loads (spec/30_encoding.md R81). -/
inductive LoadOp where
  | ldb | ldbu | ldh | ldhu | ldw
deriving DecidableEq, Repr

/-- The three stores (spec/30_encoding.md R81). -/
inductive StoreOp where
  | stb | sth | stw
deriving DecidableEq, Repr

/-- The last operand of an RI source line: a register name or an integer literal (spec/30_encoding.md R94). -/
inductive AsmSrc where
  | reg (r : RegIdx)
  | lit (n : Int)
deriving DecidableEq, Repr

/-- A source line in the spec's assembler syntax (spec/30_encoding.md R94, R95): literals are integers, branch and JAL targets absolute
addresses. `[rs1 - k]` is the offset `-k` and `[rs1]` the offset 0. -/
inductive Asm where
  | arith (op : Aop) (rd rs1 : RegIdx) (src : AsmSrc)
  | cmp (rs1 : RegIdx) (src : AsmSrc)
  | tst (rs1 : RegIdx) (src : AsmSrc)
  | lui (rd : RegIdx) (imm : Int)
  | load (op : LoadOp) (rd rs1 : RegIdx) (off : AsmSrc)
  | store (op : StoreOp) (rd rs1 : RegIdx) (off : AsmSrc)
  | loadAbs (op : LoadOp) (rd : RegIdx) (addr : Int)
  | storeAbs (op : StoreOp) (rd : RegIdx) (addr : Int)
  | bcc (cond : Cond) (target : Int)
  | jal (rd : RegIdx) (target : Int)
  | jalr (rd rs1 : RegIdx) (src : AsmSrc)
  | jala (rd : RegIdx) (addr : Int)
  | halt
  | swi (imm : Int)
  | rti
  | mfsr (rd : RegIdx) (csr : Csr)
  | mtsr (csr : Csr) (rs1 : RegIdx)
  | nop
deriving DecidableEq, Repr

/-- The pseudo-instructions of spec/30_encoding.md R96. -/
inductive Pseudo where
  | loadAddr (rd : RegIdx) (addr : Int)
  | loadBase (rd rs1 : RegIdx) (imm : Int)
  | storeAddr (rs : RegIdx) (addr : Int)
  | mov (rd rs : RegIdx)
  | li (rd : RegIdx) (imm : Int)
  | neg (rd rs : RegIdx)
  | not (rd rs : RegIdx)
  | b (target : Int)
  | bcs (target : Int)
  | bcc (target : Int)
  | jmp (target : Int)
  | call (target : Int)
  | ret
  | jr (rs : RegIdx)
deriving DecidableEq, Repr

end Sys2Proof
end

