-- ==== Sys2Proof/WellFormed.lean ====
section
/-! DEFINITION. Well-formedness. An `Instr` needs no check: each field has the width of its place in the word (spec/10_state.md R22)
and the constrained fields of spec/30_encoding.md R85 are no arguments, so every term is well formed. What can be ill formed is a SOURCE
LINE of the assembler: the checks below are "the literal ranges the assembler must reject outside of"
(spec/30_encoding.md R95), one definition a row of its table. -/

namespace Sys2Proof

/-- The range of a 15-bit immediate literal: -16384 .. 16383 (spec/30_encoding.md R95). -/
def imm15InRange (n : Int) : Bool := decide (-16384 ≤ n) && decide (n ≤ 16383)

/-- The range of LUI's literal and of an absolute load or store address: 0 .. 0x1FFFFF (spec/30_encoding.md R95). -/
def imm21InRange (n : Int) : Bool := decide (0 ≤ n) && decide (n ≤ 0x1FFFFF)

/-- A Bcc target: `target - pc` is a multiple of 4 in -2^23 .. 2^23-4 (spec/30_encoding.md R95). -/
def bccOffsetInRange (d : Int) : Bool :=
  decide (d % 4 = 0) && decide (-8388608 ≤ d) && decide (d ≤ 8388604)

/-- A JAL target: `target - pc` is a multiple of 4 in -2^22 .. 2^22-4 (spec/30_encoding.md R95). -/
def jalOffsetInRange (d : Int) : Bool :=
  decide (d % 4 = 0) && decide (-4194304 ≤ d) && decide (d ≤ 4194300)

/-- A JALA address: a multiple of 4 in 0 .. 0x7FFFFC (spec/30_encoding.md R95). -/
def jalaAddrInRange (a : Int) : Bool :=
  decide (a % 4 = 0) && decide (0 ≤ a) && decide (a ≤ 0x7FFFFC)

/-- A register name is always in range; an integer literal has the range of imm15. -/
def AsmSrc.WellFormed : AsmSrc → Bool
  | .reg _ => true
  | .lit n => imm15InRange n

/-- The source line can be assembled at address `pc`: its literals are in the ranges of spec/30_encoding.md R95, and MTSR does
not name IPEND, which "has no MTSR encoding" (spec/10_state.md R36). -/
def Asm.WellFormed (pc : Word) : Asm → Bool
  | .arith _ _ _ src => src.WellFormed
  | .cmp _ src => src.WellFormed
  | .tst _ src => src.WellFormed
  | .lui _ imm => imm21InRange imm
  | .load _ _ _ off => off.WellFormed
  | .store _ _ _ off => off.WellFormed
  | .loadAbs _ _ addr => imm21InRange addr
  | .storeAbs _ _ addr => imm21InRange addr
  | .bcc _ target => bccOffsetInRange (target - pc.toNat)
  | .jal _ target => jalOffsetInRange (target - pc.toNat)
  | .jalr _ _ src => src.WellFormed
  | .jala _ addr => jalaAddrInRange addr
  | .halt => true
  | .swi imm => imm15InRange imm
  | .rti => true
  | .mfsr _ _ => true
  | .mtsr csr _ => decide (csr ≠ .ipend)
  | .nop => true

end Sys2Proof
end

