-- ==== Sys2Proof/Decode.lean ====
section
/-! DEFINITION. The decoder (spec/30_encoding.md R88, R89), total on every word and rejecting by name; after it the encoder, which puts
each field at the place of its format (R72-R79, R93); and the byte layout of an instruction word (R70, spec/20_memory.md R57). -/

namespace Sys2Proof

/-- Why a word does not decode. Each is IllegalOpcode with detail 0 (spec/30_encoding.md R84, R85). -/
inductive DecodeError where
  /-- The opcodes 0x24-0x2F and 0x36-0x3F (R84). -/
  | reservedOpcode
  /-- Bits 9:0 of format R, or bits 25:0 of HALT, RTI and NOP, are not 0 (R85). -/
  | unusedBits
  /-- CMP or TST with rd other than 0 (R85). -/
  | flagOnlyDestination
  /-- Bcc with cond = 0b1111 (R85, R91). -/
  | reservedCondition
  /-- SWI, MFSR or MTSR with another value in a fixed field (R79, R85). -/
  | fixedField
  /-- MFSR with a CSR number above 6, MTSR with one above 5 (R85, R92). -/
  | noSuchCsr
  /-- Fewer than four bytes: no word (R70). -/
  | truncated
deriving DecidableEq, Repr

/-! ### The fields of a word (spec/30_encoding.md R71-R75, R89) -/

/-- `op = w[31:26]`. -/
def fieldOp (w : Word) : BitVec 6 := w.extractLsb' 26 6
/-- `rd = w[25:21]`. -/
def fieldRd (w : Word) : RegIdx := w.extractLsb' 21 5
/-- `rs1 = w[20:16]`. -/
def fieldRs1 (w : Word) : RegIdx := w.extractLsb' 16 5
/-- `m = w[15]`, the addressing-mode bit. -/
def fieldM (w : Word) : Bool := w.getLsbD 15
/-- `rs2 = w[14:10]`. -/
def fieldRs2 (w : Word) : RegIdx := w.extractLsb' 10 5
/-- `imm15 = w[14:0]`. -/
def fieldImm15 (w : Word) : BitVec 15 := w.extractLsb' 0 15
/-- `imm21 = w[20:0]`. -/
def fieldImm21 (w : Word) : BitVec 21 := w.extractLsb' 0 21
/-- `cond = w[25:22]`. -/
def fieldCond (w : Word) : BitVec 4 := w.extractLsb' 22 4
/-- `imm22 = w[21:0]`. -/
def fieldImm22 (w : Word) : BitVec 22 := w.extractLsb' 0 22
/-- Bits 9:0, which format R requires to be 0. -/
def fieldLow10 (w : Word) : BitVec 10 := w.extractLsb' 0 10
/-- Bits 25:0, which format S requires to be 0. -/
def fieldLow26 (w : Word) : BitVec 26 := w.extractLsb' 0 26

/-! ### The decode procedure (spec/30_encoding.md R89) -/

/-- `RI()` of R89: format R when m = 0, and then bits 9:0 must be 0; format I when m = 1. -/
def decodeRI (w : Word) (formR : RegIdx → Instr) (formI : BitVec 15 → Instr) : Except DecodeError Instr :=
  if fieldM w then .ok (formI (fieldImm15 w))
  else if fieldLow10 w = 0#10 then .ok (formR (fieldRs2 w))
  else .error .unusedBits

/-- Opcodes 0x00-0x0F, by `op[3:0]` (spec/30_encoding.md R80, R89). -/
def decodeArith (w : Word) : Except DecodeError Instr :=
  let rd := fieldRd w
  let rs1 := fieldRs1 w
  match (fieldOp w).toNat % 16 with
  | 0 => decodeRI w (.addR rd rs1) (.addI rd rs1)
  | 1 => decodeRI w (.subR rd rs1) (.subI rd rs1)
  | 2 => decodeRI w (.andR rd rs1) (.andI rd rs1)
  | 3 => decodeRI w (.orR rd rs1) (.orI rd rs1)
  | 4 => decodeRI w (.xorR rd rs1) (.xorI rd rs1)
  | 5 => decodeRI w (.shlR rd rs1) (.shlI rd rs1)
  | 6 => decodeRI w (.shrR rd rs1) (.shrI rd rs1)
  | 7 => decodeRI w (.sarR rd rs1) (.sarI rd rs1)
  | 8 => decodeRI w (.mulR rd rs1) (.mulI rd rs1)
  | 9 => decodeRI w (.divR rd rs1) (.divI rd rs1)
  | 10 => decodeRI w (.divuR rd rs1) (.divuI rd rs1)
  | 11 => decodeRI w (.remR rd rs1) (.remI rd rs1)
  | 12 => decodeRI w (.remuR rd rs1) (.remuI rd rs1)
  | 13 => if rd = 0#5 then decodeRI w (.cmpR rs1) (.cmpI rs1) else .error .flagOnlyDestination
  | 14 => if rd = 0#5 then decodeRI w (.tstR rs1) (.tstI rs1) else .error .flagOnlyDestination
  | 15 => .ok (.lui rd (fieldImm21 w))
  | _ => .error .reservedOpcode

/-- Opcodes 0x10-0x1F, by `op[3:0]` (spec/30_encoding.md R81, R89). -/
def decodeMemory (w : Word) : Except DecodeError Instr :=
  let rd := fieldRd w
  let rs1 := fieldRs1 w
  let imm21 := fieldImm21 w
  match (fieldOp w).toNat % 16 with
  | 0 => decodeRI w (.ldbR rd rs1) (.ldbI rd rs1)
  | 1 => decodeRI w (.ldbuR rd rs1) (.ldbuI rd rs1)
  | 2 => decodeRI w (.ldhR rd rs1) (.ldhI rd rs1)
  | 3 => decodeRI w (.ldhuR rd rs1) (.ldhuI rd rs1)
  | 4 => decodeRI w (.ldwR rd rs1) (.ldwI rd rs1)
  | 5 => decodeRI w (.stbR rd rs1) (.stbI rd rs1)
  | 6 => decodeRI w (.sthR rd rs1) (.sthI rd rs1)
  | 7 => decodeRI w (.stwR rd rs1) (.stwI rd rs1)
  | 8 => .ok (.ldba rd imm21)
  | 9 => .ok (.ldbua rd imm21)
  | 10 => .ok (.ldha rd imm21)
  | 11 => .ok (.ldhua rd imm21)
  | 12 => .ok (.ldwa rd imm21)
  | 13 => .ok (.stba rd imm21)
  | 14 => .ok (.stha rd imm21)
  | 15 => .ok (.stwa rd imm21)
  | _ => .error .reservedOpcode

/-- The row of Bcc that the condition field selects (spec/30_encoding.md R91); 15 is reserved. -/
def decodeBcc (w : Word) : Except DecodeError Instr :=
  let imm22 := fieldImm22 w
  match (fieldCond w).toNat with
  | 0 => .ok (.beq imm22)
  | 1 => .ok (.bne imm22)
  | 2 => .ok (.blo imm22)
  | 3 => .ok (.bhs imm22)
  | 4 => .ok (.bmi imm22)
  | 5 => .ok (.bpl imm22)
  | 6 => .ok (.bvs imm22)
  | 7 => .ok (.bvc imm22)
  | 8 => .ok (.bhi imm22)
  | 9 => .ok (.bls imm22)
  | 10 => .ok (.bge imm22)
  | 11 => .ok (.blt imm22)
  | 12 => .ok (.bgt imm22)
  | 13 => .ok (.ble imm22)
  | 14 => .ok (.bal imm22)
  | _ => .error .reservedCondition

/-- Opcodes 0x20-0x2F, by `op[3:0]` (spec/30_encoding.md R82, R89). -/
def decodeBranch (w : Word) : Except DecodeError Instr :=
  match (fieldOp w).toNat % 16 with
  | 0 => decodeBcc w
  | 1 => .ok (.jal (fieldRd w) (fieldImm21 w))
  | 2 => decodeRI w (.jalrR (fieldRd w) (fieldRs1 w)) (.jalrI (fieldRd w) (fieldRs1 w))
  | 3 => .ok (.jala (fieldRd w) (fieldImm21 w))
  | _ => .error .reservedOpcode

/-- Format S: bits 25:0 must be 0 (spec/30_encoding.md R75, R79). -/
def decodeS (w : Word) (i : Instr) : Except DecodeError Instr :=
  if fieldLow26 w = 0#26 then .ok i else .error .unusedBits

/-- The row of MFSR that the CSR number selects (spec/30_encoding.md R92). -/
def decodeMfsr (w : Word) : Except DecodeError Instr :=
  let rd := fieldRd w
  if fieldRs1 w = 0#5 ∧ fieldM w = true then
    match (fieldImm15 w).toNat with
    | 0 => .ok (.mfsrStatus rd)
    | 1 => .ok (.mfsrCause rd)
    | 2 => .ok (.mfsrEaddr rd)
    | 3 => .ok (.mfsrEpc rd)
    | 4 => .ok (.mfsrEflags rd)
    | 5 => .ok (.mfsrFlags rd)
    | 6 => .ok (.mfsrIpend rd)
    | _ => .error .noSuchCsr
  else .error .fixedField

/-- The row of MTSR that the CSR number selects (spec/30_encoding.md R92); IPEND, CSR 6, has none. -/
def decodeMtsr (w : Word) : Except DecodeError Instr :=
  let rs1 := fieldRs1 w
  if fieldRd w = 0#5 ∧ fieldM w = true then
    match (fieldImm15 w).toNat with
    | 0 => .ok (.mtsrStatus rs1)
    | 1 => .ok (.mtsrCause rs1)
    | 2 => .ok (.mtsrEaddr rs1)
    | 3 => .ok (.mtsrEpc rs1)
    | 4 => .ok (.mtsrEflags rs1)
    | 5 => .ok (.mtsrFlags rs1)
    | _ => .error .noSuchCsr
  else .error .fixedField

/-- Opcodes 0x30-0x3F, by `op[3:0]` (spec/30_encoding.md R79, R83, R89). -/
def decodeSystem (w : Word) : Except DecodeError Instr :=
  match (fieldOp w).toNat % 16 with
  | 0 => decodeS w .halt
  | 1 =>
    if fieldRd w = 0#5 ∧ fieldRs1 w = 0#5 ∧ fieldM w = true then .ok (.swi (fieldImm15 w))
    else .error .fixedField
  | 2 => decodeS w .rti
  | 3 => decodeMfsr w
  | 4 => decodeMtsr w
  | 5 => decodeS w .nop
  | _ => .error .reservedOpcode

/-- `decode(w)`, "a pure, total function of the 32-bit word alone" (spec/30_encoding.md R88, R89): `op[5:4]` selects the family
(R71), `op[3:0]` the instruction in it. -/
def decode (w : Word) : Except DecodeError Instr :=
  match (fieldOp w).toNat / 16 with
  | 0 => decodeArith w
  | 1 => decodeMemory w
  | 2 => decodeBranch w
  | 3 => decodeSystem w
  | _ => .error .reservedOpcode

/-! ### Bytes (spec/30_encoding.md R70, spec/20_memory.md R57) -/

/-- The word whose bytes, lowest address first, are `b0 b1 b2 b3`: little-endian (spec/20_memory.md R55, R57). -/
def wordOfBytes (b0 b1 b2 b3 : Byte) : Word :=
  b0.setWidth 32 ||| (b1.setWidth 32 <<< 8) ||| (b2.setWidth 32 <<< 16) ||| (b3.setWidth 32 <<< 24)

/-- The bytes of an instruction word in memory: `w[7:0], w[15:8], w[23:16], w[31:24]` (spec/70_reset_and_hazards.md R253). -/
def bytesOfWord (w : Word) : List Byte :=
  [w.extractLsb' 0 8, w.extractLsb' 8 8, w.extractLsb' 16 8, w.extractLsb' 24 8]

/-- The instruction at the head of a byte sequence and the bytes after it: always one word (spec/30_encoding.md R70). -/
def decodeBytes : List Byte → Except DecodeError (Instr × List Byte)
  | b0 :: b1 :: b2 :: b3 :: rest => (decode (wordOfBytes b0 b1 b2 b3)).map fun i => (i, rest)
  | _ => .error .truncated

/-- The bytes that hold an instruction whose bits are `w`, numbered as spec/opcode_table.json numbers them; every
bit at or above `nbits` is 0. -/
def tableBytes (nbits w : Nat) : List Byte := bytesOfWord (BitVec.ofNat 32 (w % 2 ^ nbits))

/-- The instruction the decoder reads from the table's bits `w`, laid out in bytes as the hardware stores them. -/
def decodeTableWord (nbits w : Nat) : Option Instr :=
  match decodeBytes (tableBytes nbits w) with
  | .ok (i, _) => some i
  | .error _ => none

/-! ### The encoder (spec/30_encoding.md R93) -/

/-- The field `f` with its lowest bit at bit `lo` of the word. -/
def place {k : Nat} (lo : Nat) (f : BitVec k) : Word := f.setWidth 32 <<< lo

/-- Format R (spec/30_encoding.md R72): m = 0 and bits 9:0 = 0. -/
def formatR (op : BitVec 6) (rd rs1 rs2 : RegIdx) : Word :=
  place 26 op ||| place 21 rd ||| place 16 rs1 ||| place 10 rs2

/-- Format I (spec/30_encoding.md R73): m = 1. -/
def formatI (op : BitVec 6) (rd rs1 : RegIdx) (imm15 : BitVec 15) : Word :=
  place 26 op ||| place 21 rd ||| place 16 rs1 ||| place 15 1#1 ||| place 0 imm15

/-- Format U (spec/30_encoding.md R74). -/
def formatU (op : BitVec 6) (rd : RegIdx) (imm21 : BitVec 21) : Word :=
  place 26 op ||| place 21 rd ||| place 0 imm21

/-- Format B (spec/30_encoding.md R75). -/
def formatB (op : BitVec 6) (cond : BitVec 4) (imm22 : BitVec 22) : Word :=
  place 26 op ||| place 22 cond ||| place 0 imm22

/-- Format S (spec/30_encoding.md R75): bits 25:0 = 0. -/
def formatS (op : BitVec 6) : Word := place 26 op

/-- The word of an instruction: each field at the position of its format, each constrained field at its required value
(spec/30_encoding.md R79-R83, R91-R93). -/
def encode : Instr → Word
  | .addR rd rs1 rs2 => formatR 0x00#6 rd rs1 rs2
  | .addI rd rs1 imm15 => formatI 0x00#6 rd rs1 imm15
  | .subR rd rs1 rs2 => formatR 0x01#6 rd rs1 rs2
  | .subI rd rs1 imm15 => formatI 0x01#6 rd rs1 imm15
  | .andR rd rs1 rs2 => formatR 0x02#6 rd rs1 rs2
  | .andI rd rs1 imm15 => formatI 0x02#6 rd rs1 imm15
  | .orR rd rs1 rs2 => formatR 0x03#6 rd rs1 rs2
  | .orI rd rs1 imm15 => formatI 0x03#6 rd rs1 imm15
  | .xorR rd rs1 rs2 => formatR 0x04#6 rd rs1 rs2
  | .xorI rd rs1 imm15 => formatI 0x04#6 rd rs1 imm15
  | .shlR rd rs1 rs2 => formatR 0x05#6 rd rs1 rs2
  | .shlI rd rs1 imm15 => formatI 0x05#6 rd rs1 imm15
  | .shrR rd rs1 rs2 => formatR 0x06#6 rd rs1 rs2
  | .shrI rd rs1 imm15 => formatI 0x06#6 rd rs1 imm15
  | .sarR rd rs1 rs2 => formatR 0x07#6 rd rs1 rs2
  | .sarI rd rs1 imm15 => formatI 0x07#6 rd rs1 imm15
  | .mulR rd rs1 rs2 => formatR 0x08#6 rd rs1 rs2
  | .mulI rd rs1 imm15 => formatI 0x08#6 rd rs1 imm15
  | .divR rd rs1 rs2 => formatR 0x09#6 rd rs1 rs2
  | .divI rd rs1 imm15 => formatI 0x09#6 rd rs1 imm15
  | .divuR rd rs1 rs2 => formatR 0x0A#6 rd rs1 rs2
  | .divuI rd rs1 imm15 => formatI 0x0A#6 rd rs1 imm15
  | .remR rd rs1 rs2 => formatR 0x0B#6 rd rs1 rs2
  | .remI rd rs1 imm15 => formatI 0x0B#6 rd rs1 imm15
  | .remuR rd rs1 rs2 => formatR 0x0C#6 rd rs1 rs2
  | .remuI rd rs1 imm15 => formatI 0x0C#6 rd rs1 imm15
  | .cmpR rs1 rs2 => formatR 0x0D#6 0#5 rs1 rs2
  | .cmpI rs1 imm15 => formatI 0x0D#6 0#5 rs1 imm15
  | .tstR rs1 rs2 => formatR 0x0E#6 0#5 rs1 rs2
  | .tstI rs1 imm15 => formatI 0x0E#6 0#5 rs1 imm15
  | .lui rd imm21 => formatU 0x0F#6 rd imm21
  | .ldbR rd rs1 rs2 => formatR 0x10#6 rd rs1 rs2
  | .ldbI rd rs1 imm15 => formatI 0x10#6 rd rs1 imm15
  | .ldbuR rd rs1 rs2 => formatR 0x11#6 rd rs1 rs2
  | .ldbuI rd rs1 imm15 => formatI 0x11#6 rd rs1 imm15
  | .ldhR rd rs1 rs2 => formatR 0x12#6 rd rs1 rs2
  | .ldhI rd rs1 imm15 => formatI 0x12#6 rd rs1 imm15
  | .ldhuR rd rs1 rs2 => formatR 0x13#6 rd rs1 rs2
  | .ldhuI rd rs1 imm15 => formatI 0x13#6 rd rs1 imm15
  | .ldwR rd rs1 rs2 => formatR 0x14#6 rd rs1 rs2
  | .ldwI rd rs1 imm15 => formatI 0x14#6 rd rs1 imm15
  | .stbR rd rs1 rs2 => formatR 0x15#6 rd rs1 rs2
  | .stbI rd rs1 imm15 => formatI 0x15#6 rd rs1 imm15
  | .sthR rd rs1 rs2 => formatR 0x16#6 rd rs1 rs2
  | .sthI rd rs1 imm15 => formatI 0x16#6 rd rs1 imm15
  | .stwR rd rs1 rs2 => formatR 0x17#6 rd rs1 rs2
  | .stwI rd rs1 imm15 => formatI 0x17#6 rd rs1 imm15
  | .ldba rd imm21 => formatU 0x18#6 rd imm21
  | .ldbua rd imm21 => formatU 0x19#6 rd imm21
  | .ldha rd imm21 => formatU 0x1A#6 rd imm21
  | .ldhua rd imm21 => formatU 0x1B#6 rd imm21
  | .ldwa rd imm21 => formatU 0x1C#6 rd imm21
  | .stba rd imm21 => formatU 0x1D#6 rd imm21
  | .stha rd imm21 => formatU 0x1E#6 rd imm21
  | .stwa rd imm21 => formatU 0x1F#6 rd imm21
  | .beq imm22 => formatB 0x20#6 0#4 imm22
  | .bne imm22 => formatB 0x20#6 1#4 imm22
  | .blo imm22 => formatB 0x20#6 2#4 imm22
  | .bhs imm22 => formatB 0x20#6 3#4 imm22
  | .bmi imm22 => formatB 0x20#6 4#4 imm22
  | .bpl imm22 => formatB 0x20#6 5#4 imm22
  | .bvs imm22 => formatB 0x20#6 6#4 imm22
  | .bvc imm22 => formatB 0x20#6 7#4 imm22
  | .bhi imm22 => formatB 0x20#6 8#4 imm22
  | .bls imm22 => formatB 0x20#6 9#4 imm22
  | .bge imm22 => formatB 0x20#6 10#4 imm22
  | .blt imm22 => formatB 0x20#6 11#4 imm22
  | .bgt imm22 => formatB 0x20#6 12#4 imm22
  | .ble imm22 => formatB 0x20#6 13#4 imm22
  | .bal imm22 => formatB 0x20#6 14#4 imm22
  | .jal rd imm21 => formatU 0x21#6 rd imm21
  | .jalrR rd rs1 rs2 => formatR 0x22#6 rd rs1 rs2
  | .jalrI rd rs1 imm15 => formatI 0x22#6 rd rs1 imm15
  | .jala rd imm21 => formatU 0x23#6 rd imm21
  | .halt => formatS 0x30#6
  | .swi imm15 => formatI 0x31#6 0#5 0#5 imm15
  | .rti => formatS 0x32#6
  | .mfsrStatus rd => formatI 0x33#6 rd 0#5 0#15
  | .mfsrCause rd => formatI 0x33#6 rd 0#5 1#15
  | .mfsrEaddr rd => formatI 0x33#6 rd 0#5 2#15
  | .mfsrEpc rd => formatI 0x33#6 rd 0#5 3#15
  | .mfsrEflags rd => formatI 0x33#6 rd 0#5 4#15
  | .mfsrFlags rd => formatI 0x33#6 rd 0#5 5#15
  | .mfsrIpend rd => formatI 0x33#6 rd 0#5 6#15
  | .mtsrStatus rs1 => formatI 0x34#6 0#5 rs1 0#15
  | .mtsrCause rs1 => formatI 0x34#6 0#5 rs1 1#15
  | .mtsrEaddr rs1 => formatI 0x34#6 0#5 rs1 2#15
  | .mtsrEpc rs1 => formatI 0x34#6 0#5 rs1 3#15
  | .mtsrEflags rs1 => formatI 0x34#6 0#5 rs1 4#15
  | .mtsrFlags rs1 => formatI 0x34#6 0#5 rs1 5#15
  | .nop => formatS 0x35#6

/-- The bytes of an instruction in memory. -/
def encodeBytes (i : Instr) : List Byte := bytesOfWord (encode i)

end Sys2Proof
end

