-- ==== Sys2Proof/Config.lean ====
section
/-! DEFINITION. The construction parameters of the core (spec/00_scope.md R7): fixed when the core is built, constant
afterwards. The model takes each as an argument: they are one record, carried in the state unchanged by every step. -/

namespace Sys2Proof

/-- The cause codes of spec/60_exceptions.md R201, by name; their numbers 1..6 are `Cause.code`. -/
inductive Cause where
  | illegalOpcode
  | memoryFault
  | divideByZero
  | softwareInterrupt
  | externalInterrupt
  | doubleFault
deriving DecidableEq, Repr

/-- `VECTOR_TABLE`: "function from cause code (rule R201) to optional Word" (spec/00_scope.md R7), one entry a cause.
The entry of the double fault has the table's shape and is never read (spec/90_conflicts.md C1). -/
structure VectorTable where
  illegalOpcode : Option Word := none
  memoryFault : Option Word := none
  divideByZero : Option Word := none
  softwareInterrupt : Option Word := none
  externalInterrupt : Option Word := none
  doubleFault : Option Word := none
deriving DecidableEq, Repr

/-- The construction parameters of spec/00_scope.md R7. -/
structure Config where
  /-- `MEM_CAPACITY`, the number of bytes of the memory image; legal values 4 .. 2^32 (R251). -/
  memCapacity : Nat
  /-- `ENTRY_POINT`, the initial pc. -/
  entryPoint : Word
  /-- `VECTOR_TABLE`, the handler address per cause, or none. -/
  vectors : VectorTable
deriving DecidableEq, Repr

/-- The parameters of the core that `Sys2Proof.Machine.State.reset` is. DESIGN CHOICE (notes/assumptions/1.md): the
spec leaves the three parameters open (92 P1-P3); these are the default configuration of spec/95_test_vectors.md
section 0, capacity 0x10000, entry point 0, no handler. -/
def Config.standard : Config :=
  { memCapacity := 0x10000, entryPoint := 0x00000000#32, vectors := {} }

end Sys2Proof
end

