-- ==== Sys2Proof/Machine/State.lean ====
section
/-! DEFINITION. The state of the core as plain data: everything spec/10_state.md and spec/60_exceptions.md give the machine, its
reset value (spec/10_state.md R44, spec/70_reset_and_hazards.md R250), and the types a step answers with. -/

namespace Sys2Proof.Machine

/-- The four flags (spec/10_state.md R26). -/
structure Flags where
  /-- `C`, carry. -/
  c : Bool
  /-- `Z`, zero. -/
  z : Bool
  /-- `N`, negative. -/
  n : Bool
  /-- `V`, overflow. -/
  v : Bool
deriving DecidableEq, Repr

/-- STATUS (CSR 0), bits 4:0 (spec/10_state.md R30); bits 31:5 are reserved, read as 0 and have no storage. -/
structure Status where
  /-- Bit 0, `IE`: the external interrupt may be vectored. -/
  ie : Bool
  /-- Bit 1, `PRIV`: true is supervisor, false is user. -/
  priv : Bool
  /-- Bit 2, `PIE`: IE as it was before the last trap entry. -/
  pie : Bool
  /-- Bit 3, `PPRIV`: PRIV as it was before the last trap entry. -/
  ppriv : Bool
  /-- Bit 4, `INH`: in handler, true from trap entry until RTI. -/
  inh : Bool
deriving DecidableEq, Repr

/-- The two kinds of a failed access check (spec/20_memory.md R54). -/
inductive FaultKind where
  | outOfBounds
  | misaligned
deriving DecidableEq, Repr

/-- The triple every trap carries (spec/60_exceptions.md R202): the cause, the detail and the value. -/
structure Trap where
  cause : Cause
  detail : Byte
  value : Word
deriving DecidableEq, Repr

/-- `halt_reason` (spec/10_state.md R41, spec/60_exceptions.md R215). -/
inductive HaltReason where
  | halt
  | doubleFault (t : Trap)
  | unhandled (t : Trap)
  | externalHalt
deriving DecidableEq, Repr

/-- The memory image (spec/20_memory.md R50) as the list of its bytes that are not 0x00, addresses strictly rising. -/
abbrev Memory := List Host.Cell

/-- The Execution Context (spec/10_state.md): the complete state of the core. -/
structure State where
  /-- The construction parameters (spec/00_scope.md R7). Not architectural state (spec/10_state.md R43): no step changes them. -/
  cfg : Config
  /-- `x[1]` .. `x[31]` in order (spec/10_state.md R20); `x[0]` is hardwired and has no storage (R21). -/
  regs : Vector Word 31
  /-- The program counter (spec/10_state.md R24). -/
  pc : Word
  /-- C, Z, N, V (spec/10_state.md R26); CSR 5, FLAGS, is their bulk form (R35). -/
  flags : Flags
  /-- CSR 0, STATUS (spec/10_state.md R30). -/
  status : Status
  /-- CSR 1, CAUSE (spec/10_state.md R31). -/
  cause : Word
  /-- CSR 2, EADDR (spec/10_state.md R32). -/
  eaddr : Word
  /-- CSR 3, EPC (spec/10_state.md R33). -/
  epc : Word
  /-- CSR 4, EFLAGS bits 3:0 (spec/10_state.md R34); bits 31:4 read as 0 and have no storage. -/
  eflags : BitVec 4
  /-- The external-interrupt pending latch (spec/10_state.md R39); bit 0 of CSR 6, IPEND (R36). -/
  irq : Bool
  /-- The host's halt request (spec/10_state.md R40). -/
  haltReq : Bool
  /-- The halted flag (spec/10_state.md R41). -/
  halted : Bool
  /-- Why `halted` was set (spec/10_state.md R41). -/
  haltReason : Option HaltReason
  /-- The memory image (spec/10_state.md R42). -/
  mem : Memory
deriving DecidableEq, Repr

/-- What stops the model with a fault: nothing. "No behaviour of MV32 is left undefined" (spec/93_implementation_defined.md): each
fault of the spec is a trap the step takes, each fatal condition the halted state, so this type has no constructor. Safe. -/
inductive Fault where
deriving DecidableEq, Repr

/-- What the model refuses. -/
inductive Refusal where
  /-- Raised by an arm of `exec` for an instruction that has no meaning yet; no arm raises it now. Safe: it claims nothing. -/
  | notModelled (mnemonic : String)
deriving DecidableEq, Repr

/-- The state `new` builds (spec/10_state.md R44, spec/70_reset_and_hazards.md R250): pc = ENTRY_POINT, PRIV = 1, all else 0. -/
def State.initial (cfg : Config) : State where
  cfg := cfg
  regs := Vector.replicate 31 0x00000000#32
  pc := cfg.entryPoint
  flags := { c := false, z := false, n := false, v := false }
  status := { ie := false, priv := true, pie := false, ppriv := false, inh := false }
  cause := 0x00000000#32
  eaddr := 0x00000000#32
  epc := 0x00000000#32
  eflags := 0#4
  irq := false
  haltReq := false
  halted := false
  haltReason := none
  mem := []

/-- The machine right after reset, that is after construction (spec/70_reset_and_hazards.md R250), with the parameters of
`Config.standard`. -/
def State.reset : State := State.initial Config.standard

/-- The ControlEffect of an instruction (spec/60_exceptions.md R206). -/
inductive Effect where
  /-- `Continue`. -/
  | next
  /-- `Jump(t)`. -/
  | jump (target : Word)
  /-- `Trap(code, detail, value)`. -/
  | trap (t : Trap)
  /-- `Halt`. -/
  | halt
deriving DecidableEq, Repr

/-- The StepResult `step()` returns to the host (spec/60_exceptions.md R223). -/
inductive StepResult where
  | executed
  | trapped (t : Trap)
  | interrupted
  | halted (reason : HaltReason)
  | alreadyHalted
deriving DecidableEq, Repr

end Sys2Proof.Machine
end

