-- ==== Sys2Proof/Machine/Ops.lean ====
section
/-! DEFINITION. The named operations every meaning shares: registers, the memory interface (spec/20_memory.md), the control and status registers,
halting, taking a trap and returning from one (spec/60_exceptions.md), and applying a control effect. -/

namespace Sys2Proof.Machine

/-! ### General registers (spec/10_state.md R20-R22) -/

/-- `x[i]`: register 0 reads 0, every other reads its storage (spec/10_state.md R21). -/
def State.reg (s : State) (i : RegIdx) : Word :=
  if i = 0#5 then 0x00000000#32 else s.regs[i.toNat - 1]'(by have := i.isLt; omega)

/-- `x[i] <- v`: a write to register 0 is discarded (spec/10_state.md R21). -/
def State.setReg (s : State) (i : RegIdx) (v : Word) : State :=
  if i = 0#5 then s
  else { s with regs := s.regs.set (i.toNat - 1) v (by have := i.isLt; omega) }

/-- Write the four flags. -/
def State.setFlags (s : State) (f : Flags) : State := { s with flags := f }

/-! ### The memory image (spec/20_memory.md R50) -/

/-- The byte at an address. An address that is not listed reads 0x00, its reset value (spec/10_state.md R44). -/
def Memory.read : Memory → Nat → Byte
  | [], _ => 0x00#8
  | (a', b) :: m, a => if a = a' then b else Memory.read m a

/-- Write one byte, keeping the canonical form: addresses strictly rising, no entry 0x00. -/
def Memory.write : Memory → Nat → Byte → Memory
  | [], a, b => if b = 0x00#8 then [] else [(a, b)]
  | (a', b') :: m, a, b =>
    if a < a' then (if b = 0x00#8 then (a', b') :: m else (a, b) :: (a', b') :: m)
    else if a = a' then (if b = 0x00#8 then m else (a, b) :: m)
    else (a', b') :: Memory.write m a b

/-- The address `a` is above `lo`, or there is no `lo`. -/
def aboveFloor (lo : Option Nat) (a : Nat) : Bool :=
  match lo with
  | none => true
  | some l => decide (l < a)

/-- Every address of the list is above `lo` or there is no `lo`; addresses rise strictly; no entry is 0x00; every address is
below `cap`. -/
def Memory.wfFrom (cap : Nat) : Option Nat → Memory → Bool
  | _, [] => true
  | lo, (a, b) :: m => aboveFloor lo a && decide (a < cap) && decide (b ≠ 0x00#8) && Memory.wfFrom cap (some a) m

/-- The canonical form of an image of `cap` bytes: addresses strictly rising and below `cap` (spec/20_memory.md R50), no entry equal to
what an unlisted address reads as. -/
def Memory.wf (cap : Nat) (m : Memory) : Bool := Memory.wfFrom cap none m

/-- The number of bytes of an access (spec/20_memory.md R52). -/
def Width.bytes : Width → Nat
  | .byte => 1
  | .half => 2
  | .word => 4

/-- `Check(addr, n)`: bounds first, computed on integers, then natural alignment (spec/20_memory.md R53). -/
def checkAccess (cap : Nat) (addr : Word) (n : Nat) : Option FaultKind :=
  if addr.toNat + n > cap then some .outOfBounds
  else if addr.toNat % n ≠ 0 then some .misaligned
  else none

/-- The `n` bytes from `a` up as one number, the lowest address least significant (spec/20_memory.md R55). -/
def Memory.readLE (m : Memory) (a : Nat) : Nat → Word
  | 0 => 0x00000000#32
  | n + 1 => (Memory.read m a).setWidth 32 ||| (Memory.readLE m (a + 1) n <<< 8)

/-- `mem[a + k] <- v[8k+7:8k]` for k below `n` (spec/20_memory.md R56). -/
def Memory.writeLE (m : Memory) (a : Nat) : Nat → Word → Memory
  | 0, _ => m
  | n + 1, v => Memory.writeLE (Memory.write m a (v.extractLsb' 0 8)) (a + 1) n (v >>> 8)

/-- Write a byte sequence from address `a` up (spec/70_reset_and_hazards.md R253). -/
def Memory.writeBytes (m : Memory) (a : Nat) : List Byte → Memory
  | [] => m
  | b :: bs => Memory.writeBytes (Memory.write m a b) (a + 1) bs

/-- `TargetOk(t)`: 4-aligned and `t + 4 ≤ MEM_CAPACITY` (spec/20_memory.md R58). -/
def targetOk (cap : Nat) (t : Word) : Bool := decide (t.toNat % 4 = 0) && decide (t.toNat + 4 ≤ cap)

/-- `Check(addr, n)` on this core's memory. -/
def State.check (s : State) (addr : Word) (n : Nat) : Option FaultKind :=
  checkAccess s.cfg.memCapacity addr n

/-- `MemRead(addr, n)`, zero-extended (spec/20_memory.md R55). -/
def State.memRead (s : State) (addr : Word) (n : Nat) : Word := Memory.readLE s.mem addr.toNat n

/-- `MemWrite(addr, n, v)` (spec/20_memory.md R56). -/
def State.memWrite (s : State) (addr : Word) (n : Nat) (v : Word) : State :=
  { s with mem := Memory.writeLE s.mem addr.toNat n v }

/-! ### Control and status registers (spec/10_state.md R28-R36) -/

/-- `flags4 = V ++ N ++ Z ++ C` (spec/10_state.md R28). -/
def Flags.bits (f : Flags) : BitVec 4 :=
  BitVec.ofBool f.v ++ BitVec.ofBool f.n ++ BitVec.ofBool f.z ++ BitVec.ofBool f.c

/-- The flags that a `flags4` value holds (spec/10_state.md R28, R35). -/
def Flags.ofBits (b : BitVec 4) : Flags :=
  { c := b.getLsbD 0, z := b.getLsbD 1, n := b.getLsbD 2, v := b.getLsbD 3 }

/-- STATUS as MFSR reads it: `zext_5(INH ++ PPRIV ++ PIE ++ PRIV ++ IE)` (spec/43_system.md R184). -/
def Status.word (st : Status) : Word :=
  (BitVec.ofBool st.inh ++ BitVec.ofBool st.ppriv ++ BitVec.ofBool st.pie ++ BitVec.ofBool st.priv
    ++ BitVec.ofBool st.ie).setWidth 32

/-- STATUS as MTSR writes it: bits 3:0; INH and bits 31:5 are ignored (spec/43_system.md R185, spec/10_state.md R30). -/
def Status.write (st : Status) (v : Word) : Status :=
  { ie := v.getLsbD 0, priv := v.getLsbD 1, pie := v.getLsbD 2, ppriv := v.getLsbD 3, inh := st.inh }

/-- The value MFSR reads from a CSR (spec/43_system.md R184). -/
def State.csr (s : State) : Csr → Word
  | .status => s.status.word
  | .cause => s.cause
  | .eaddr => s.eaddr
  | .epc => s.epc
  | .eflags => s.eflags.setWidth 32
  | .flags => s.flags.bits.setWidth 32
  | .ipend => (BitVec.ofBool s.irq).setWidth 32

/-- The effect of MTSR on a CSR (spec/43_system.md R185). IPEND is read-only (spec/10_state.md R36): a write would have no effect, and
MTSR has no encoding for it. -/
def State.setCsr (s : State) (c : Csr) (v : Word) : State :=
  match c with
  | .status => { s with status := s.status.write v }
  | .cause => { s with cause := v }
  | .eaddr => { s with eaddr := v }
  | .epc => { s with epc := v }
  | .eflags => { s with eflags := v.setWidth 4 }
  | .flags => { s with flags := Flags.ofBits (v.setWidth 4) }
  | .ipend => s

/-! ### Causes and traps (spec/60_exceptions.md R201, R202) -/

/-- The cause codes (spec/60_exceptions.md R201). -/
def Cause.code : Cause → Byte
  | .illegalOpcode => 1#8
  | .memoryFault => 2#8
  | .divideByZero => 3#8
  | .softwareInterrupt => 4#8
  | .externalInterrupt => 5#8
  | .doubleFault => 6#8

/-- The detail of a MemoryFault: 0 OutOfBounds, 1 Misaligned (spec/60_exceptions.md R202). -/
def FaultKind.detail : FaultKind → Byte
  | .outOfBounds => 0#8
  | .misaligned => 1#8

/-- IllegalOpcode for a word that does not decode: detail 0, value the word (spec/60_exceptions.md R202). -/
def trapUndecoded (w : Word) : Trap := { cause := .illegalOpcode, detail := 0#8, value := w }

/-- IllegalOpcode for a privileged instruction in user mode: detail 1, value the word (spec/60_exceptions.md R202). -/
def trapPrivilege (w : Word) : Trap := { cause := .illegalOpcode, detail := 1#8, value := w }

/-- MemoryFault: the kind and the address that failed the check (spec/60_exceptions.md R202). -/
def trapMemory (k : FaultKind) (addr : Word) : Trap :=
  { cause := .memoryFault, detail := k.detail, value := addr }

/-- DivideByZero: detail 0, value 0 (spec/60_exceptions.md R202). -/
def trapDivide : Trap := { cause := .divideByZero, detail := 0#8, value := 0x00000000#32 }

/-- SoftwareInterrupt: detail 0, value `sext_15(imm15)` (spec/60_exceptions.md R202). -/
def trapSoftware (imm15 : BitVec 15) : Trap :=
  { cause := .softwareInterrupt, detail := 0#8, value := imm15.signExtend 32 }

/-- ExternalInterrupt: detail 0, value 0 (spec/60_exceptions.md R202). -/
def trapExternal : Trap := { cause := .externalInterrupt, detail := 0#8, value := 0x00000000#32 }

/-- What trap entry writes to CAUSE: `zext_16(detail ++ code)` (spec/10_state.md R31). -/
def Trap.causeWord (t : Trap) : Word := (t.detail ++ Cause.code t.cause).setWidth 32

/-- `VECTOR_TABLE(c)` (spec/00_scope.md R7). -/
def VectorTable.handler (v : VectorTable) : Cause → Option Word
  | .illegalOpcode => v.illegalOpcode
  | .memoryFault => v.memoryFault
  | .divideByZero => v.divideByZero
  | .softwareInterrupt => v.softwareInterrupt
  | .externalInterrupt => v.externalInterrupt
  | .doubleFault => v.doubleFault

/-! ### Halting, trap entry and return (spec/60_exceptions.md) -/

/-- `halt(reason)`: sets `halted` and `halt_reason`, nothing else (spec/60_exceptions.md R215). -/
def haltWith (r : HaltReason) (s : State) : State × StepResult :=
  ({ s with halted := true, haltReason := some r }, .halted r)

/-- STATUS after trap entry: PIE and PPRIV save IE and PRIV, IE is cleared, PRIV is supervisor, INH is set
(spec/60_exceptions.md R210). -/
def Status.enter (st : Status) : Status :=
  { ie := false, priv := true, pie := st.ie, ppriv := st.priv, inh := true }

/-- The writes of trap entry to handler `h` (spec/60_exceptions.md R210). -/
def enterHandler (t : Trap) (epc h : Word) (s : State) : State :=
  { s with
    epc := epc
    eflags := s.flags.bits
    cause := t.causeWord
    eaddr := t.value
    status := s.status.enter
    irq := if t.cause = .externalInterrupt then false else s.irq
    pc := h }

/-- `Vector(c, d, v, epc)`: trap entry, or the halt of an unhandled trap (spec/60_exceptions.md R210, R216). -/
def vectorTrap (t : Trap) (epc : Word) (s : State) : State × StepResult :=
  match VectorTable.handler s.cfg.vectors t.cause with
  | none => haltWith (.unhandled t) s
  | some h =>
    (enterHandler t epc h s, if t.cause = .externalInterrupt then .interrupted else .trapped t)

/-- `TakeSync(c, d, v)`: a synchronous trap, a double fault when INH = 1 and IE = 0 (spec/60_exceptions.md R209, R214). -/
def takeSync (t : Trap) (s : State) : State × StepResult :=
  if s.status.inh = true ∧ s.status.ie = false then haltWith (.doubleFault t) s
  else vectorTrap t s.pc s

/-- STATUS after RTI: IE from PIE, PRIV from PPRIV, INH cleared; PIE and PPRIV keep their values (spec/43_system.md R183). -/
def Status.leave (st : Status) : Status :=
  { ie := st.pie, priv := st.ppriv, pie := st.pie, ppriv := st.ppriv, inh := false }

/-- The writes of RTI but for the jump to EPC: flags and STATUS restored, the record cleared (spec/43_system.md R183). -/
def leaveHandler (s : State) : State :=
  { s with
    flags := Flags.ofBits s.eflags
    status := s.status.leave
    cause := 0x00000000#32
    eaddr := 0x00000000#32
    epc := 0x00000000#32
    eflags := 0#4 }

/-! ### Control effects (spec/60_exceptions.md R206-R208) -/

/-- `raise Cause(detail, value)`: the instruction ends with a Trap and has written nothing (spec/60_exceptions.md R208). -/
def raise (t : Trap) (s : State) : State × Effect := (s, .trap t)

/-- `RequireSupervisor()` for the instruction whose word is `w`, before the rest of its pseudocode (spec/43_system.md R180). -/
def requireSupervisor (w : Word) (s : State) (rest : State × Effect) : State × Effect :=
  if s.status.priv then rest else raise (trapPrivilege w) s

/-- A transfer to `t`: the target is checked before anything is written; `s'` is the state with the link
(spec/20_memory.md R58, spec/42_branch.md R160). -/
def transfer (t : Word) (s s' : State) : State × Effect :=
  match s.check t 4 with
  | some k => raise (trapMemory k t) s
  | none => (s', .jump t)

/-- `Apply(e)` (spec/60_exceptions.md R207). -/
def applyEffect (r : State × Effect) : State × StepResult :=
  match r.2 with
  | .next => ({ r.1 with pc := r.1.pc + 4#32 }, .executed)
  | .jump t => ({ r.1 with pc := t }, .executed)
  | .trap t => takeSync t r.1
  | .halt => haltWith .halt r.1

/-- The answer of a meaning: its control effect applied. -/
def finish (r : State × Effect) : Host.Outcome State Fault Refusal := .next (applyEffect r).1

end Sys2Proof.Machine
end

