-- ==== Sys2Proof/Machine/Operands.lean ====
section
/-! DEFINITION. Operand and immediate assembly (spec/30_encoding.md R76-R78) and effective addresses (spec/41_memory_ops.md R130). -/

namespace Sys2Proof.Machine

/-- `sext_15(imm15)` (spec/30_encoding.md R76). -/
def sextImm15 (imm15 : BitVec 15) : Word := imm15.signExtend 32

/-- `src2`: `x[rs2]` when m = 0, `sext_15(imm15)` when m = 1 (spec/30_encoding.md R76). -/
def State.src2 (s : State) : Src2 → Word
  | .reg rs2 => s.reg rs2
  | .imm imm15 => sextImm15 imm15

/-- LUI's immediate: `imm21 << 11` (spec/30_encoding.md R77). -/
def luiImm (imm21 : BitVec 21) : Word := imm21.setWidth 32 <<< 11

/-- The address of an absolute load or store: `zext_21(imm21)` (spec/30_encoding.md R77). -/
def absAddr (imm21 : BitVec 21) : Word := imm21.setWidth 32

/-- JAL's target: `pc + (sext_21(imm21) << 2)` mod 2^32 (spec/30_encoding.md R77, spec/42_branch.md R163). -/
def jalTarget (pc : Word) (imm21 : BitVec 21) : Word := pc + (imm21.signExtend 32 <<< 2)

/-- JALA's target: `zext_21(imm21) << 2` (spec/30_encoding.md R77, spec/42_branch.md R165). -/
def jalaTarget (imm21 : BitVec 21) : Word := imm21.setWidth 32 <<< 2

/-- Bcc's target: `pc + (sext_22(imm22) << 2)` mod 2^32 (spec/30_encoding.md R78). -/
def bccTarget (pc : Word) (imm22 : BitVec 22) : Word := pc + (imm22.signExtend 32 <<< 2)

/-- JALR's target: `x[rs1] + src2` mod 2^32 (spec/42_branch.md R164). -/
def jalrTarget (s : State) (rs1 : RegIdx) (src : Src2) : Word := s.reg rs1 + s.src2 src

/-- The effective address of a load or store (spec/41_memory_ops.md R130). -/
def State.ea (s : State) : MemAddr → Word
  | .base rs1 src => s.reg rs1 + s.src2 src
  | .abs imm21 => absAddr imm21

/-- `EXT(v)`: the extension of a value of width `w` read from memory (spec/41_memory_ops.md R131-R136). -/
def extend (w : Width) (e : Ext) (v : Word) : Word :=
  match e, w with
  | .sign, .byte => (v.extractLsb' 0 8).signExtend 32
  | .sign, .half => (v.extractLsb' 0 16).signExtend 32
  | .sign, .word => v
  | .zero, .byte => (v.extractLsb' 0 8).setWidth 32
  | .zero, .half => (v.extractLsb' 0 16).setWidth 32
  | .zero, .word => v
  | .none, _ => v

end Sys2Proof.Machine
end

