-- ==== Sys2Proof/Machine/Flags.lean ====
section
/-! DEFINITION. Results and flags of the arithmetic family (spec/40_arithmetic.md R101-R116), each computed exactly on integers and then
narrowed, and the conditions of Bcc (spec/42_branch.md R161). -/

namespace Sys2Proof.Machine

/-- `SetZN(r)` with the C and V an operation gives: Z = 1 when r = 0, N = r[31] (spec/40_arithmetic.md R101). -/
def flagsOf (r : Word) (c v : Bool) : Flags :=
  { c := c, z := decide (r = 0x00000000#32), n := r.getLsbD 31, v := v }

/-- ADD (spec/40_arithmetic.md R102). -/
def aluAdd (a b : Word) : Word × Flags :=
  let s := a.toNat + b.toNat
  let r := BitVec.ofNat 32 s
  (r, flagsOf r (decide (s ≥ 2 ^ 32))
    (decide (a.getLsbD 31 = b.getLsbD 31) && decide (r.getLsbD 31 ≠ a.getLsbD 31)))

/-- SUB and CMP (spec/40_arithmetic.md R103, R115). -/
def aluSub (a b : Word) : Word × Flags :=
  let r := BitVec.ofInt 32 ((a.toNat : Int) - (b.toNat : Int))
  (r, flagsOf r (decide (a.toNat < b.toNat))
    (decide (a.getLsbD 31 ≠ b.getLsbD 31) && decide (r.getLsbD 31 ≠ a.getLsbD 31)))

/-- The bitwise operations and TST: C and V cleared (spec/40_arithmetic.md R104-R106, R116). -/
def aluLogic (r : Word) : Word × Flags := (r, flagsOf r false false)

/-- AND and TST (spec/40_arithmetic.md R104, R116). -/
def aluAnd (a b : Word) : Word × Flags := aluLogic (a &&& b)

/-- OR (spec/40_arithmetic.md R105). -/
def aluOr (a b : Word) : Word × Flags := aluLogic (a ||| b)

/-- XOR (spec/40_arithmetic.md R106). -/
def aluXor (a b : Word) : Word × Flags := aluLogic (a ^^^ b)

/-- The shift amount `sh = b[4:0]` (spec/40_arithmetic.md R107). -/
def shiftAmount (b : Word) : Nat := (b.extractLsb' 0 5).toNat

/-- SHL: C is the last bit shifted out (spec/40_arithmetic.md R107). -/
def aluShl (a b : Word) : Word × Flags :=
  let sh := shiftAmount b
  let r := BitVec.ofNat 32 (a.toNat * 2 ^ sh)
  (r, flagsOf r (if sh = 0 then false else a.getLsbD (32 - sh)) false)

/-- SHR (spec/40_arithmetic.md R108). -/
def aluShr (a b : Word) : Word × Flags :=
  let sh := shiftAmount b
  let r := BitVec.ofNat 32 (a.toNat / 2 ^ sh)
  (r, flagsOf r (if sh = 0 then false else a.getLsbD (sh - 1)) false)

/-- SAR: floor of the signed quotient (spec/40_arithmetic.md R109). -/
def aluSar (a b : Word) : Word × Flags :=
  let sh := shiftAmount b
  let r := BitVec.ofInt 32 (a.toInt / (2 ^ sh : Nat))
  (r, flagsOf r (if sh = 0 then false else a.getLsbD (sh - 1)) false)

/-- MUL, low word (spec/40_arithmetic.md R110). -/
def aluMul (a b : Word) : Word × Flags :=
  let pu := a.toNat * b.toNat
  let ps := a.toInt * b.toInt
  let r := BitVec.ofNat 32 pu
  (r, flagsOf r (decide (pu ≥ 2 ^ 32)) (decide (ps < -2 ^ 31) || decide (ps ≥ 2 ^ 31)))

/-- DIV with a divisor other than 0: truncated quotient; V only for 0x80000000 / -1 (spec/40_arithmetic.md R111). -/
def aluDiv (a b : Word) : Word × Flags :=
  if a = 0x80000000#32 ∧ b = 0xFFFFFFFF#32 then (0x80000000#32, flagsOf 0x80000000#32 false true)
  else
    let r := BitVec.ofInt 32 (Int.tdiv a.toInt b.toInt)
    (r, flagsOf r false false)

/-- DIVU with a divisor other than 0 (spec/40_arithmetic.md R112). -/
def aluDivu (a b : Word) : Word × Flags :=
  let r := BitVec.ofNat 32 (a.toNat / b.toNat)
  (r, flagsOf r false false)

/-- REM with a divisor other than 0: `signed(a) - signed(b) * q` (spec/40_arithmetic.md R113). -/
def aluRem (a b : Word) : Word × Flags :=
  let r := BitVec.ofInt 32 (a.toInt - b.toInt * Int.tdiv a.toInt b.toInt)
  (r, flagsOf r false false)

/-- REMU with a divisor other than 0 (spec/40_arithmetic.md R114). -/
def aluRemu (a b : Word) : Word × Flags :=
  let r := BitVec.ofNat 32 (a.toNat % b.toNat)
  (r, flagsOf r false false)

/-- `CondHolds(cond)` (spec/42_branch.md R161). -/
def condHolds (cond : Cond) (f : Flags) : Bool :=
  match cond with
  | .eq => f.z
  | .ne => !f.z
  | .lo => f.c
  | .hs => !f.c
  | .mi => f.n
  | .pl => !f.n
  | .vs => f.v
  | .vc => !f.v
  | .hi => !f.c && !f.z
  | .ls => f.c || f.z
  | .ge => f.n == f.v
  | .lt => f.n != f.v
  | .gt => !f.z && f.n == f.v
  | .le => f.z || f.n != f.v
  | .al => true

end Sys2Proof.Machine
end

