-- ==== Sys2Proof/Machine/Arith.lean ====
section
/-! DEFINITION. The arithmetic family (spec/40_arithmetic.md): what each instruction's pseudocode writes and its control effect (`eff…`),
and the meaning of each row of the opcode table (`exec…`), that effect applied (spec/60_exceptions.md R207). -/

namespace Sys2Proof.Machine

/-! ### The shared shapes -/

/-- Both operands are read before anything is written; then `x[rd]` and the four flags are (spec/40_arithmetic.md R100). -/
def arith (f : Word → Word → Word × Flags) (rd rs1 : RegIdx) (src : Src2) (s : State) : State × Effect :=
  let r := f (s.reg rs1) (s.src2 src)
  ((s.setReg rd r.1).setFlags r.2, .next)

/-- The flags only, no register (spec/40_arithmetic.md R115, R116). -/
def flagsOnly (f : Word → Word → Word × Flags) (rs1 : RegIdx) (src : Src2) (s : State) : State × Effect :=
  (s.setFlags (f (s.reg rs1) (s.src2 src)).2, .next)

/-- A divisor 0 raises DivideByZero with nothing written (spec/40_arithmetic.md R111-R114). -/
def divide (f : Word → Word → Word × Flags) (rd rs1 : RegIdx) (src : Src2) (s : State) : State × Effect :=
  if s.src2 src = 0x00000000#32 then raise trapDivide s else arith f rd rs1 src s

/-! ### The instructions -/

/-- ADD (spec/40_arithmetic.md R102). -/
def effAdd (rd rs1 : RegIdx) (src : Src2) (s : State) : State × Effect := arith aluAdd rd rs1 src s

/-- SUB (spec/40_arithmetic.md R103). -/
def effSub (rd rs1 : RegIdx) (src : Src2) (s : State) : State × Effect := arith aluSub rd rs1 src s

/-- AND (spec/40_arithmetic.md R104). -/
def effAnd (rd rs1 : RegIdx) (src : Src2) (s : State) : State × Effect := arith aluAnd rd rs1 src s

/-- OR (spec/40_arithmetic.md R105). -/
def effOr (rd rs1 : RegIdx) (src : Src2) (s : State) : State × Effect := arith aluOr rd rs1 src s

/-- XOR (spec/40_arithmetic.md R106). -/
def effXor (rd rs1 : RegIdx) (src : Src2) (s : State) : State × Effect := arith aluXor rd rs1 src s

/-- SHL (spec/40_arithmetic.md R107). -/
def effShl (rd rs1 : RegIdx) (src : Src2) (s : State) : State × Effect := arith aluShl rd rs1 src s

/-- SHR (spec/40_arithmetic.md R108). -/
def effShr (rd rs1 : RegIdx) (src : Src2) (s : State) : State × Effect := arith aluShr rd rs1 src s

/-- SAR (spec/40_arithmetic.md R109). -/
def effSar (rd rs1 : RegIdx) (src : Src2) (s : State) : State × Effect := arith aluSar rd rs1 src s

/-- MUL (spec/40_arithmetic.md R110). -/
def effMul (rd rs1 : RegIdx) (src : Src2) (s : State) : State × Effect := arith aluMul rd rs1 src s

/-- DIV: divisor 0 raises DivideByZero (spec/40_arithmetic.md R111). -/
def effDiv (rd rs1 : RegIdx) (src : Src2) (s : State) : State × Effect := divide aluDiv rd rs1 src s

/-- DIVU: divisor 0 raises DivideByZero (spec/40_arithmetic.md R112). -/
def effDivu (rd rs1 : RegIdx) (src : Src2) (s : State) : State × Effect := divide aluDivu rd rs1 src s

/-- REM: divisor 0 raises DivideByZero (spec/40_arithmetic.md R113). -/
def effRem (rd rs1 : RegIdx) (src : Src2) (s : State) : State × Effect := divide aluRem rd rs1 src s

/-- REMU: divisor 0 raises DivideByZero (spec/40_arithmetic.md R114). -/
def effRemu (rd rs1 : RegIdx) (src : Src2) (s : State) : State × Effect := divide aluRemu rd rs1 src s

/-- CMP (spec/40_arithmetic.md R115). -/
def effCmp (rs1 : RegIdx) (src : Src2) (s : State) : State × Effect := flagsOnly aluSub rs1 src s

/-- TST (spec/40_arithmetic.md R116). -/
def effTst (rs1 : RegIdx) (src : Src2) (s : State) : State × Effect := flagsOnly aluAnd rs1 src s

/-- LUI: flags unchanged (spec/40_arithmetic.md R117). -/
def effLui (rd : RegIdx) (imm21 : BitVec 21) (s : State) : State × Effect := (s.setReg rd (luiImm imm21), .next)

/-! ### The rows of the opcode table -/

/-- ADD, register form (spec/40_arithmetic.md R102). -/
def execAddR (rd rs1 rs2 : RegIdx) (s : State) : Host.Outcome State Fault Refusal :=
  finish (effAdd rd rs1 (.reg rs2) s)

/-- ADD, immediate form (spec/40_arithmetic.md R102). -/
def execAddI (rd rs1 : RegIdx) (imm15 : BitVec 15) (s : State) : Host.Outcome State Fault Refusal :=
  finish (effAdd rd rs1 (.imm imm15) s)

/-- SUB, register form (spec/40_arithmetic.md R103). -/
def execSubR (rd rs1 rs2 : RegIdx) (s : State) : Host.Outcome State Fault Refusal :=
  finish (effSub rd rs1 (.reg rs2) s)

/-- SUB, immediate form (spec/40_arithmetic.md R103). -/
def execSubI (rd rs1 : RegIdx) (imm15 : BitVec 15) (s : State) : Host.Outcome State Fault Refusal :=
  finish (effSub rd rs1 (.imm imm15) s)

/-- AND, register form (spec/40_arithmetic.md R104). -/
def execAndR (rd rs1 rs2 : RegIdx) (s : State) : Host.Outcome State Fault Refusal :=
  finish (effAnd rd rs1 (.reg rs2) s)

/-- AND, immediate form (spec/40_arithmetic.md R104). -/
def execAndI (rd rs1 : RegIdx) (imm15 : BitVec 15) (s : State) : Host.Outcome State Fault Refusal :=
  finish (effAnd rd rs1 (.imm imm15) s)

/-- OR, register form (spec/40_arithmetic.md R105). -/
def execOrR (rd rs1 rs2 : RegIdx) (s : State) : Host.Outcome State Fault Refusal :=
  finish (effOr rd rs1 (.reg rs2) s)

/-- OR, immediate form (spec/40_arithmetic.md R105). -/
def execOrI (rd rs1 : RegIdx) (imm15 : BitVec 15) (s : State) : Host.Outcome State Fault Refusal :=
  finish (effOr rd rs1 (.imm imm15) s)

/-- XOR, register form (spec/40_arithmetic.md R106). -/
def execXorR (rd rs1 rs2 : RegIdx) (s : State) : Host.Outcome State Fault Refusal :=
  finish (effXor rd rs1 (.reg rs2) s)

/-- XOR, immediate form (spec/40_arithmetic.md R106). -/
def execXorI (rd rs1 : RegIdx) (imm15 : BitVec 15) (s : State) : Host.Outcome State Fault Refusal :=
  finish (effXor rd rs1 (.imm imm15) s)

/-- SHL, register form (spec/40_arithmetic.md R107). -/
def execShlR (rd rs1 rs2 : RegIdx) (s : State) : Host.Outcome State Fault Refusal :=
  finish (effShl rd rs1 (.reg rs2) s)

/-- SHL, immediate form (spec/40_arithmetic.md R107). -/
def execShlI (rd rs1 : RegIdx) (imm15 : BitVec 15) (s : State) : Host.Outcome State Fault Refusal :=
  finish (effShl rd rs1 (.imm imm15) s)

/-- SHR, register form (spec/40_arithmetic.md R108). -/
def execShrR (rd rs1 rs2 : RegIdx) (s : State) : Host.Outcome State Fault Refusal :=
  finish (effShr rd rs1 (.reg rs2) s)

/-- SHR, immediate form (spec/40_arithmetic.md R108). -/
def execShrI (rd rs1 : RegIdx) (imm15 : BitVec 15) (s : State) : Host.Outcome State Fault Refusal :=
  finish (effShr rd rs1 (.imm imm15) s)

/-- SAR, register form (spec/40_arithmetic.md R109). -/
def execSarR (rd rs1 rs2 : RegIdx) (s : State) : Host.Outcome State Fault Refusal :=
  finish (effSar rd rs1 (.reg rs2) s)

/-- SAR, immediate form (spec/40_arithmetic.md R109). -/
def execSarI (rd rs1 : RegIdx) (imm15 : BitVec 15) (s : State) : Host.Outcome State Fault Refusal :=
  finish (effSar rd rs1 (.imm imm15) s)

/-- MUL, register form (spec/40_arithmetic.md R110). -/
def execMulR (rd rs1 rs2 : RegIdx) (s : State) : Host.Outcome State Fault Refusal :=
  finish (effMul rd rs1 (.reg rs2) s)

/-- MUL, immediate form (spec/40_arithmetic.md R110). -/
def execMulI (rd rs1 : RegIdx) (imm15 : BitVec 15) (s : State) : Host.Outcome State Fault Refusal :=
  finish (effMul rd rs1 (.imm imm15) s)

/-- DIV, register form (spec/40_arithmetic.md R111). -/
def execDivR (rd rs1 rs2 : RegIdx) (s : State) : Host.Outcome State Fault Refusal :=
  finish (effDiv rd rs1 (.reg rs2) s)

/-- DIV, immediate form (spec/40_arithmetic.md R111). -/
def execDivI (rd rs1 : RegIdx) (imm15 : BitVec 15) (s : State) : Host.Outcome State Fault Refusal :=
  finish (effDiv rd rs1 (.imm imm15) s)

/-- DIVU, register form (spec/40_arithmetic.md R112). -/
def execDivuR (rd rs1 rs2 : RegIdx) (s : State) : Host.Outcome State Fault Refusal :=
  finish (effDivu rd rs1 (.reg rs2) s)

/-- DIVU, immediate form (spec/40_arithmetic.md R112). -/
def execDivuI (rd rs1 : RegIdx) (imm15 : BitVec 15) (s : State) : Host.Outcome State Fault Refusal :=
  finish (effDivu rd rs1 (.imm imm15) s)

/-- REM, register form (spec/40_arithmetic.md R113). -/
def execRemR (rd rs1 rs2 : RegIdx) (s : State) : Host.Outcome State Fault Refusal :=
  finish (effRem rd rs1 (.reg rs2) s)

/-- REM, immediate form (spec/40_arithmetic.md R113). -/
def execRemI (rd rs1 : RegIdx) (imm15 : BitVec 15) (s : State) : Host.Outcome State Fault Refusal :=
  finish (effRem rd rs1 (.imm imm15) s)

/-- REMU, register form (spec/40_arithmetic.md R114). -/
def execRemuR (rd rs1 rs2 : RegIdx) (s : State) : Host.Outcome State Fault Refusal :=
  finish (effRemu rd rs1 (.reg rs2) s)

/-- REMU, immediate form (spec/40_arithmetic.md R114). -/
def execRemuI (rd rs1 : RegIdx) (imm15 : BitVec 15) (s : State) : Host.Outcome State Fault Refusal :=
  finish (effRemu rd rs1 (.imm imm15) s)

/-- CMP, register form (spec/40_arithmetic.md R115). -/
def execCmpR (rs1 rs2 : RegIdx) (s : State) : Host.Outcome State Fault Refusal :=
  finish (effCmp rs1 (.reg rs2) s)

/-- CMP, immediate form (spec/40_arithmetic.md R115). -/
def execCmpI (rs1 : RegIdx) (imm15 : BitVec 15) (s : State) : Host.Outcome State Fault Refusal :=
  finish (effCmp rs1 (.imm imm15) s)

/-- TST, register form (spec/40_arithmetic.md R116). -/
def execTstR (rs1 rs2 : RegIdx) (s : State) : Host.Outcome State Fault Refusal :=
  finish (effTst rs1 (.reg rs2) s)

/-- TST, immediate form (spec/40_arithmetic.md R116). -/
def execTstI (rs1 : RegIdx) (imm15 : BitVec 15) (s : State) : Host.Outcome State Fault Refusal :=
  finish (effTst rs1 (.imm imm15) s)

/-- LUI (spec/40_arithmetic.md R117). -/
def execLui (rd : RegIdx) (imm21 : BitVec 21) (s : State) : Host.Outcome State Fault Refusal :=
  finish (effLui rd imm21 s)

end Sys2Proof.Machine
end

