-- ==== Sys2Proof/Machine/Branch.lean ====
section
/-! DEFINITION. The branch family (spec/42_branch.md): what each transfer writes and its control effect (`eff…`), and the meaning of
each row of the opcode table (`exec…`). -/

namespace Sys2Proof.Machine

/-! ### The instructions -/

/-- A jump with link: the target is checked before `x[rd] <- pc + 4` is written (spec/42_branch.md R160). -/
def jumpAndLink (rd : RegIdx) (t : Word) (s : State) : State × Effect :=
  transfer t s (s.setReg rd (s.pc + 4#32))

/-- Bcc: a branch not taken continues with no target check (spec/42_branch.md R162). -/
def effBcc (cond : Cond) (imm22 : BitVec 22) (s : State) : State × Effect :=
  if condHolds cond s.flags then transfer (bccTarget s.pc imm22) s s else (s, .next)

/-- JAL (spec/42_branch.md R163). -/
def effJal (rd : RegIdx) (imm21 : BitVec 21) (s : State) : State × Effect := jumpAndLink rd (jalTarget s.pc imm21) s

/-- JALR: the target is read before the link is written (spec/42_branch.md R164). -/
def effJalr (rd rs1 : RegIdx) (src : Src2) (s : State) : State × Effect := jumpAndLink rd (jalrTarget s rs1 src) s

/-- JALA (spec/42_branch.md R165). -/
def effJala (rd : RegIdx) (imm21 : BitVec 21) (s : State) : State × Effect := jumpAndLink rd (jalaTarget imm21) s

/-! ### The rows of the opcode table -/

/-- BEQ (spec/42_branch.md R162). -/
def execBeq (imm22 : BitVec 22) (s : State) : Host.Outcome State Fault Refusal :=
  finish (effBcc .eq imm22 s)

/-- BNE (spec/42_branch.md R162). -/
def execBne (imm22 : BitVec 22) (s : State) : Host.Outcome State Fault Refusal :=
  finish (effBcc .ne imm22 s)

/-- BLO (spec/42_branch.md R162). -/
def execBlo (imm22 : BitVec 22) (s : State) : Host.Outcome State Fault Refusal :=
  finish (effBcc .lo imm22 s)

/-- BHS (spec/42_branch.md R162). -/
def execBhs (imm22 : BitVec 22) (s : State) : Host.Outcome State Fault Refusal :=
  finish (effBcc .hs imm22 s)

/-- BMI (spec/42_branch.md R162). -/
def execBmi (imm22 : BitVec 22) (s : State) : Host.Outcome State Fault Refusal :=
  finish (effBcc .mi imm22 s)

/-- BPL (spec/42_branch.md R162). -/
def execBpl (imm22 : BitVec 22) (s : State) : Host.Outcome State Fault Refusal :=
  finish (effBcc .pl imm22 s)

/-- BVS (spec/42_branch.md R162). -/
def execBvs (imm22 : BitVec 22) (s : State) : Host.Outcome State Fault Refusal :=
  finish (effBcc .vs imm22 s)

/-- BVC (spec/42_branch.md R162). -/
def execBvc (imm22 : BitVec 22) (s : State) : Host.Outcome State Fault Refusal :=
  finish (effBcc .vc imm22 s)

/-- BHI (spec/42_branch.md R162). -/
def execBhi (imm22 : BitVec 22) (s : State) : Host.Outcome State Fault Refusal :=
  finish (effBcc .hi imm22 s)

/-- BLS (spec/42_branch.md R162). -/
def execBls (imm22 : BitVec 22) (s : State) : Host.Outcome State Fault Refusal :=
  finish (effBcc .ls imm22 s)

/-- BGE (spec/42_branch.md R162). -/
def execBge (imm22 : BitVec 22) (s : State) : Host.Outcome State Fault Refusal :=
  finish (effBcc .ge imm22 s)

/-- BLT (spec/42_branch.md R162). -/
def execBlt (imm22 : BitVec 22) (s : State) : Host.Outcome State Fault Refusal :=
  finish (effBcc .lt imm22 s)

/-- BGT (spec/42_branch.md R162). -/
def execBgt (imm22 : BitVec 22) (s : State) : Host.Outcome State Fault Refusal :=
  finish (effBcc .gt imm22 s)

/-- BLE (spec/42_branch.md R162). -/
def execBle (imm22 : BitVec 22) (s : State) : Host.Outcome State Fault Refusal :=
  finish (effBcc .le imm22 s)

/-- BAL (spec/42_branch.md R162). -/
def execBal (imm22 : BitVec 22) (s : State) : Host.Outcome State Fault Refusal :=
  finish (effBcc .al imm22 s)

/-- JAL (spec/42_branch.md R163). -/
def execJal (rd : RegIdx) (imm21 : BitVec 21) (s : State) : Host.Outcome State Fault Refusal :=
  finish (effJal rd imm21 s)

/-- JALR, register form (spec/42_branch.md R164). -/
def execJalrR (rd rs1 rs2 : RegIdx) (s : State) : Host.Outcome State Fault Refusal :=
  finish (effJalr rd rs1 (.reg rs2) s)

/-- JALR, immediate form (spec/42_branch.md R164). -/
def execJalrI (rd rs1 : RegIdx) (imm15 : BitVec 15) (s : State) : Host.Outcome State Fault Refusal :=
  finish (effJalr rd rs1 (.imm imm15) s)

/-- JALA (spec/42_branch.md R165). -/
def execJala (rd : RegIdx) (imm21 : BitVec 21) (s : State) : Host.Outcome State Fault Refusal :=
  finish (effJala rd imm21 s)

end Sys2Proof.Machine
end

