-- ==== Sys2Proof/Machine/LoadStore.lean ====
section
/-! DEFINITION. The memory family (spec/41_memory_ops.md): what each load and store writes and its control effect (`eff…`), and the
meaning of each row of the opcode table (`exec…`). -/

namespace Sys2Proof.Machine

/-! ### The procedure of every load and store (spec/41_memory_ops.md R131) -/

/-- A load of width `w` with extension `e`: the check, then `x[rd] <- EXT(MemRead(ea, n))`. -/
def load (w : Width) (e : Ext) (rd : RegIdx) (addr : MemAddr) (s : State) : State × Effect :=
  let ea := s.ea addr
  match s.check ea (Width.bytes w) with
  | some k => raise (trapMemory k ea) s
  | none => (s.setReg rd (extend w e (s.memRead ea (Width.bytes w))), .next)

/-- A store of width `w`: the check, then `MemWrite(ea, n, x[rd])`. -/
def store (w : Width) (rd : RegIdx) (addr : MemAddr) (s : State) : State × Effect :=
  let ea := s.ea addr
  match s.check ea (Width.bytes w) with
  | some k => raise (trapMemory k ea) s
  | none => (s.memWrite ea (Width.bytes w) (s.reg rd), .next)

/-! ### The instructions -/

/-- LDB and LDBA (spec/41_memory_ops.md R132, R140). -/
def effLdb (rd : RegIdx) (addr : MemAddr) (s : State) : State × Effect := load .byte .sign rd addr s

/-- LDBU and LDBUA (spec/41_memory_ops.md R133, R141). -/
def effLdbu (rd : RegIdx) (addr : MemAddr) (s : State) : State × Effect := load .byte .zero rd addr s

/-- LDH and LDHA (spec/41_memory_ops.md R134, R142). -/
def effLdh (rd : RegIdx) (addr : MemAddr) (s : State) : State × Effect := load .half .sign rd addr s

/-- LDHU and LDHUA (spec/41_memory_ops.md R135, R143). -/
def effLdhu (rd : RegIdx) (addr : MemAddr) (s : State) : State × Effect := load .half .zero rd addr s

/-- LDW and LDWA (spec/41_memory_ops.md R136, R144). -/
def effLdw (rd : RegIdx) (addr : MemAddr) (s : State) : State × Effect := load .word .none rd addr s

/-- STB and STBA (spec/41_memory_ops.md R137, R145). -/
def effStb (rd : RegIdx) (addr : MemAddr) (s : State) : State × Effect := store .byte rd addr s

/-- STH and STHA (spec/41_memory_ops.md R138, R146). -/
def effSth (rd : RegIdx) (addr : MemAddr) (s : State) : State × Effect := store .half rd addr s

/-- STW and STWA (spec/41_memory_ops.md R139, R147). -/
def effStw (rd : RegIdx) (addr : MemAddr) (s : State) : State × Effect := store .word rd addr s

/-! ### The rows of the opcode table -/

/-- LDB, register form (spec/41_memory_ops.md R132). -/
def execLdbR (rd rs1 rs2 : RegIdx) (s : State) : Host.Outcome State Fault Refusal :=
  finish (effLdb rd (.base rs1 (.reg rs2)) s)

/-- LDB, immediate form (spec/41_memory_ops.md R132). -/
def execLdbI (rd rs1 : RegIdx) (imm15 : BitVec 15) (s : State) : Host.Outcome State Fault Refusal :=
  finish (effLdb rd (.base rs1 (.imm imm15)) s)

/-- LDBU, register form (spec/41_memory_ops.md R133). -/
def execLdbuR (rd rs1 rs2 : RegIdx) (s : State) : Host.Outcome State Fault Refusal :=
  finish (effLdbu rd (.base rs1 (.reg rs2)) s)

/-- LDBU, immediate form (spec/41_memory_ops.md R133). -/
def execLdbuI (rd rs1 : RegIdx) (imm15 : BitVec 15) (s : State) : Host.Outcome State Fault Refusal :=
  finish (effLdbu rd (.base rs1 (.imm imm15)) s)

/-- LDH, register form (spec/41_memory_ops.md R134). -/
def execLdhR (rd rs1 rs2 : RegIdx) (s : State) : Host.Outcome State Fault Refusal :=
  finish (effLdh rd (.base rs1 (.reg rs2)) s)

/-- LDH, immediate form (spec/41_memory_ops.md R134). -/
def execLdhI (rd rs1 : RegIdx) (imm15 : BitVec 15) (s : State) : Host.Outcome State Fault Refusal :=
  finish (effLdh rd (.base rs1 (.imm imm15)) s)

/-- LDHU, register form (spec/41_memory_ops.md R135). -/
def execLdhuR (rd rs1 rs2 : RegIdx) (s : State) : Host.Outcome State Fault Refusal :=
  finish (effLdhu rd (.base rs1 (.reg rs2)) s)

/-- LDHU, immediate form (spec/41_memory_ops.md R135). -/
def execLdhuI (rd rs1 : RegIdx) (imm15 : BitVec 15) (s : State) : Host.Outcome State Fault Refusal :=
  finish (effLdhu rd (.base rs1 (.imm imm15)) s)

/-- LDW, register form (spec/41_memory_ops.md R136). -/
def execLdwR (rd rs1 rs2 : RegIdx) (s : State) : Host.Outcome State Fault Refusal :=
  finish (effLdw rd (.base rs1 (.reg rs2)) s)

/-- LDW, immediate form (spec/41_memory_ops.md R136). -/
def execLdwI (rd rs1 : RegIdx) (imm15 : BitVec 15) (s : State) : Host.Outcome State Fault Refusal :=
  finish (effLdw rd (.base rs1 (.imm imm15)) s)

/-- STB, register form (spec/41_memory_ops.md R137). -/
def execStbR (rd rs1 rs2 : RegIdx) (s : State) : Host.Outcome State Fault Refusal :=
  finish (effStb rd (.base rs1 (.reg rs2)) s)

/-- STB, immediate form (spec/41_memory_ops.md R137). -/
def execStbI (rd rs1 : RegIdx) (imm15 : BitVec 15) (s : State) : Host.Outcome State Fault Refusal :=
  finish (effStb rd (.base rs1 (.imm imm15)) s)

/-- STH, register form (spec/41_memory_ops.md R138). -/
def execSthR (rd rs1 rs2 : RegIdx) (s : State) : Host.Outcome State Fault Refusal :=
  finish (effSth rd (.base rs1 (.reg rs2)) s)

/-- STH, immediate form (spec/41_memory_ops.md R138). -/
def execSthI (rd rs1 : RegIdx) (imm15 : BitVec 15) (s : State) : Host.Outcome State Fault Refusal :=
  finish (effSth rd (.base rs1 (.imm imm15)) s)

/-- STW, register form (spec/41_memory_ops.md R139). -/
def execStwR (rd rs1 rs2 : RegIdx) (s : State) : Host.Outcome State Fault Refusal :=
  finish (effStw rd (.base rs1 (.reg rs2)) s)

/-- STW, immediate form (spec/41_memory_ops.md R139). -/
def execStwI (rd rs1 : RegIdx) (imm15 : BitVec 15) (s : State) : Host.Outcome State Fault Refusal :=
  finish (effStw rd (.base rs1 (.imm imm15)) s)

/-- LDBA (spec/41_memory_ops.md R140). -/
def execLdba (rd : RegIdx) (imm21 : BitVec 21) (s : State) : Host.Outcome State Fault Refusal :=
  finish (effLdb rd (.abs imm21) s)

/-- LDBUA (spec/41_memory_ops.md R141). -/
def execLdbua (rd : RegIdx) (imm21 : BitVec 21) (s : State) : Host.Outcome State Fault Refusal :=
  finish (effLdbu rd (.abs imm21) s)

/-- LDHA (spec/41_memory_ops.md R142). -/
def execLdha (rd : RegIdx) (imm21 : BitVec 21) (s : State) : Host.Outcome State Fault Refusal :=
  finish (effLdh rd (.abs imm21) s)

/-- LDHUA (spec/41_memory_ops.md R143). -/
def execLdhua (rd : RegIdx) (imm21 : BitVec 21) (s : State) : Host.Outcome State Fault Refusal :=
  finish (effLdhu rd (.abs imm21) s)

/-- LDWA (spec/41_memory_ops.md R144). -/
def execLdwa (rd : RegIdx) (imm21 : BitVec 21) (s : State) : Host.Outcome State Fault Refusal :=
  finish (effLdw rd (.abs imm21) s)

/-- STBA (spec/41_memory_ops.md R145). -/
def execStba (rd : RegIdx) (imm21 : BitVec 21) (s : State) : Host.Outcome State Fault Refusal :=
  finish (effStb rd (.abs imm21) s)

/-- STHA (spec/41_memory_ops.md R146). -/
def execStha (rd : RegIdx) (imm21 : BitVec 21) (s : State) : Host.Outcome State Fault Refusal :=
  finish (effSth rd (.abs imm21) s)

/-- STWA (spec/41_memory_ops.md R147). -/
def execStwa (rd : RegIdx) (imm21 : BitVec 21) (s : State) : Host.Outcome State Fault Refusal :=
  finish (effStw rd (.abs imm21) s)

end Sys2Proof.Machine
end

