-- ==== Sys2Proof/Machine/System.lean ====
section
/-! DEFINITION. The system family (spec/43_system.md): what each instruction writes and its control effect (`eff…`), and the meaning of
each row of the opcode table (`exec…`). `execute(i, w)` takes the instruction word w for the privilege check (spec/60_exceptions.md R205); every
instruction is exactly one word (spec/30_encoding.md R85), so w is `encode` of the row (DEDUCED, notes/assumptions/3.md). -/

namespace Sys2Proof.Machine

/-! ### The instructions -/

/-- HALT (spec/43_system.md R181). -/
def effHalt (s : State) : State × Effect := requireSupervisor (encode .halt) s (s, .halt)

/-- SWI: at both levels, whatever IE is (spec/43_system.md R182). -/
def effSwi (imm15 : BitVec 15) (s : State) : State × Effect := raise (trapSoftware imm15) s

/-- RTI: EPC is checked as a transfer target before anything is restored (spec/43_system.md R183). -/
def effRti (s : State) : State × Effect :=
  requireSupervisor (encode .rti) s (transfer s.epc s (leaveHandler s))

/-- The privilege check of MFSR and MTSR: every CSR but FLAGS needs the supervisor (spec/43_system.md R180). -/
def requireForCsr (c : Csr) (w : Word) (s : State) (rest : State × Effect) : State × Effect :=
  if c = .flags then rest else requireSupervisor w s rest

/-- MFSR (spec/43_system.md R184). -/
def effMfsr (c : Csr) (rd : RegIdx) (w : Word) (s : State) : State × Effect :=
  requireForCsr c w s (s.setReg rd (s.csr c), .next)

/-- MTSR (spec/43_system.md R185). -/
def effMtsr (c : Csr) (rs1 : RegIdx) (w : Word) (s : State) : State × Effect :=
  requireForCsr c w s (s.setCsr c (s.reg rs1), .next)

/-- NOP (spec/43_system.md R186). -/
def effNop (s : State) : State × Effect := (s, .next)

/-! ### The rows of the opcode table -/

/-- HALT (spec/43_system.md R181). -/
def execHalt (s : State) : Host.Outcome State Fault Refusal :=
  finish (effHalt s)

/-- SWI (spec/43_system.md R182). -/
def execSwi (imm15 : BitVec 15) (s : State) : Host.Outcome State Fault Refusal :=
  finish (effSwi imm15 s)

/-- RTI (spec/43_system.md R183). -/
def execRti (s : State) : Host.Outcome State Fault Refusal :=
  finish (effRti s)

/-- MFSR of STATUS (spec/43_system.md R184). -/
def execMfsrStatus (rd : RegIdx) (s : State) : Host.Outcome State Fault Refusal :=
  finish (effMfsr .status rd (encode (.mfsrStatus rd)) s)

/-- MFSR of CAUSE (spec/43_system.md R184). -/
def execMfsrCause (rd : RegIdx) (s : State) : Host.Outcome State Fault Refusal :=
  finish (effMfsr .cause rd (encode (.mfsrCause rd)) s)

/-- MFSR of EADDR (spec/43_system.md R184). -/
def execMfsrEaddr (rd : RegIdx) (s : State) : Host.Outcome State Fault Refusal :=
  finish (effMfsr .eaddr rd (encode (.mfsrEaddr rd)) s)

/-- MFSR of EPC (spec/43_system.md R184). -/
def execMfsrEpc (rd : RegIdx) (s : State) : Host.Outcome State Fault Refusal :=
  finish (effMfsr .epc rd (encode (.mfsrEpc rd)) s)

/-- MFSR of EFLAGS (spec/43_system.md R184). -/
def execMfsrEflags (rd : RegIdx) (s : State) : Host.Outcome State Fault Refusal :=
  finish (effMfsr .eflags rd (encode (.mfsrEflags rd)) s)

/-- MFSR of FLAGS (spec/43_system.md R184). -/
def execMfsrFlags (rd : RegIdx) (s : State) : Host.Outcome State Fault Refusal :=
  finish (effMfsr .flags rd (encode (.mfsrFlags rd)) s)

/-- MFSR of IPEND (spec/43_system.md R184). -/
def execMfsrIpend (rd : RegIdx) (s : State) : Host.Outcome State Fault Refusal :=
  finish (effMfsr .ipend rd (encode (.mfsrIpend rd)) s)

/-- MTSR of STATUS (spec/43_system.md R185). -/
def execMtsrStatus (rs1 : RegIdx) (s : State) : Host.Outcome State Fault Refusal :=
  finish (effMtsr .status rs1 (encode (.mtsrStatus rs1)) s)

/-- MTSR of CAUSE (spec/43_system.md R185). -/
def execMtsrCause (rs1 : RegIdx) (s : State) : Host.Outcome State Fault Refusal :=
  finish (effMtsr .cause rs1 (encode (.mtsrCause rs1)) s)

/-- MTSR of EADDR (spec/43_system.md R185). -/
def execMtsrEaddr (rs1 : RegIdx) (s : State) : Host.Outcome State Fault Refusal :=
  finish (effMtsr .eaddr rs1 (encode (.mtsrEaddr rs1)) s)

/-- MTSR of EPC (spec/43_system.md R185). -/
def execMtsrEpc (rs1 : RegIdx) (s : State) : Host.Outcome State Fault Refusal :=
  finish (effMtsr .epc rs1 (encode (.mtsrEpc rs1)) s)

/-- MTSR of EFLAGS (spec/43_system.md R185). -/
def execMtsrEflags (rs1 : RegIdx) (s : State) : Host.Outcome State Fault Refusal :=
  finish (effMtsr .eflags rs1 (encode (.mtsrEflags rs1)) s)

/-- MTSR of FLAGS (spec/43_system.md R185). -/
def execMtsrFlags (rs1 : RegIdx) (s : State) : Host.Outcome State Fault Refusal :=
  finish (effMtsr .flags rs1 (encode (.mtsrFlags rs1)) s)

/-- NOP (spec/43_system.md R186). -/
def execNop (s : State) : Host.Outcome State Fault Refusal :=
  finish (effNop s)

end Sys2Proof.Machine
end

