-- ==== Sys2Proof/Machine/Dispatch.lean ====
section
/-! DEFINITION. The dispatch: one arm for each constructor of `Instr`, each one call of that instruction's meaning. -/

namespace Sys2Proof.Machine

/-- The meaning of an instruction at a state: its pseudocode run with pc the instruction's address, and its control effect applied
(spec/60_exceptions.md R205-R207). -/
def exec (i : Instr) (s : State) : Host.Outcome State Fault Refusal :=
  match i with
  | .addR rd rs1 rs2 => Sys2Proof.Machine.execAddR rd rs1 rs2 s
  | .addI rd rs1 imm15 => Sys2Proof.Machine.execAddI rd rs1 imm15 s
  | .subR rd rs1 rs2 => Sys2Proof.Machine.execSubR rd rs1 rs2 s
  | .subI rd rs1 imm15 => Sys2Proof.Machine.execSubI rd rs1 imm15 s
  | .andR rd rs1 rs2 => Sys2Proof.Machine.execAndR rd rs1 rs2 s
  | .andI rd rs1 imm15 => Sys2Proof.Machine.execAndI rd rs1 imm15 s
  | .orR rd rs1 rs2 => Sys2Proof.Machine.execOrR rd rs1 rs2 s
  | .orI rd rs1 imm15 => Sys2Proof.Machine.execOrI rd rs1 imm15 s
  | .xorR rd rs1 rs2 => Sys2Proof.Machine.execXorR rd rs1 rs2 s
  | .xorI rd rs1 imm15 => Sys2Proof.Machine.execXorI rd rs1 imm15 s
  | .shlR rd rs1 rs2 => Sys2Proof.Machine.execShlR rd rs1 rs2 s
  | .shlI rd rs1 imm15 => Sys2Proof.Machine.execShlI rd rs1 imm15 s
  | .shrR rd rs1 rs2 => Sys2Proof.Machine.execShrR rd rs1 rs2 s
  | .shrI rd rs1 imm15 => Sys2Proof.Machine.execShrI rd rs1 imm15 s
  | .sarR rd rs1 rs2 => Sys2Proof.Machine.execSarR rd rs1 rs2 s
  | .sarI rd rs1 imm15 => Sys2Proof.Machine.execSarI rd rs1 imm15 s
  | .mulR rd rs1 rs2 => Sys2Proof.Machine.execMulR rd rs1 rs2 s
  | .mulI rd rs1 imm15 => Sys2Proof.Machine.execMulI rd rs1 imm15 s
  | .divR rd rs1 rs2 => Sys2Proof.Machine.execDivR rd rs1 rs2 s
  | .divI rd rs1 imm15 => Sys2Proof.Machine.execDivI rd rs1 imm15 s
  | .divuR rd rs1 rs2 => Sys2Proof.Machine.execDivuR rd rs1 rs2 s
  | .divuI rd rs1 imm15 => Sys2Proof.Machine.execDivuI rd rs1 imm15 s
  | .remR rd rs1 rs2 => Sys2Proof.Machine.execRemR rd rs1 rs2 s
  | .remI rd rs1 imm15 => Sys2Proof.Machine.execRemI rd rs1 imm15 s
  | .remuR rd rs1 rs2 => Sys2Proof.Machine.execRemuR rd rs1 rs2 s
  | .remuI rd rs1 imm15 => Sys2Proof.Machine.execRemuI rd rs1 imm15 s
  | .cmpR rs1 rs2 => Sys2Proof.Machine.execCmpR rs1 rs2 s
  | .cmpI rs1 imm15 => Sys2Proof.Machine.execCmpI rs1 imm15 s
  | .tstR rs1 rs2 => Sys2Proof.Machine.execTstR rs1 rs2 s
  | .tstI rs1 imm15 => Sys2Proof.Machine.execTstI rs1 imm15 s
  | .lui rd imm21 => Sys2Proof.Machine.execLui rd imm21 s
  | .ldbR rd rs1 rs2 => Sys2Proof.Machine.execLdbR rd rs1 rs2 s
  | .ldbI rd rs1 imm15 => Sys2Proof.Machine.execLdbI rd rs1 imm15 s
  | .ldbuR rd rs1 rs2 => Sys2Proof.Machine.execLdbuR rd rs1 rs2 s
  | .ldbuI rd rs1 imm15 => Sys2Proof.Machine.execLdbuI rd rs1 imm15 s
  | .ldhR rd rs1 rs2 => Sys2Proof.Machine.execLdhR rd rs1 rs2 s
  | .ldhI rd rs1 imm15 => Sys2Proof.Machine.execLdhI rd rs1 imm15 s
  | .ldhuR rd rs1 rs2 => Sys2Proof.Machine.execLdhuR rd rs1 rs2 s
  | .ldhuI rd rs1 imm15 => Sys2Proof.Machine.execLdhuI rd rs1 imm15 s
  | .ldwR rd rs1 rs2 => Sys2Proof.Machine.execLdwR rd rs1 rs2 s
  | .ldwI rd rs1 imm15 => Sys2Proof.Machine.execLdwI rd rs1 imm15 s
  | .stbR rd rs1 rs2 => Sys2Proof.Machine.execStbR rd rs1 rs2 s
  | .stbI rd rs1 imm15 => Sys2Proof.Machine.execStbI rd rs1 imm15 s
  | .sthR rd rs1 rs2 => Sys2Proof.Machine.execSthR rd rs1 rs2 s
  | .sthI rd rs1 imm15 => Sys2Proof.Machine.execSthI rd rs1 imm15 s
  | .stwR rd rs1 rs2 => Sys2Proof.Machine.execStwR rd rs1 rs2 s
  | .stwI rd rs1 imm15 => Sys2Proof.Machine.execStwI rd rs1 imm15 s
  | .ldba rd imm21 => Sys2Proof.Machine.execLdba rd imm21 s
  | .ldbua rd imm21 => Sys2Proof.Machine.execLdbua rd imm21 s
  | .ldha rd imm21 => Sys2Proof.Machine.execLdha rd imm21 s
  | .ldhua rd imm21 => Sys2Proof.Machine.execLdhua rd imm21 s
  | .ldwa rd imm21 => Sys2Proof.Machine.execLdwa rd imm21 s
  | .stba rd imm21 => Sys2Proof.Machine.execStba rd imm21 s
  | .stha rd imm21 => Sys2Proof.Machine.execStha rd imm21 s
  | .stwa rd imm21 => Sys2Proof.Machine.execStwa rd imm21 s
  | .beq imm22 => Sys2Proof.Machine.execBeq imm22 s
  | .bne imm22 => Sys2Proof.Machine.execBne imm22 s
  | .blo imm22 => Sys2Proof.Machine.execBlo imm22 s
  | .bhs imm22 => Sys2Proof.Machine.execBhs imm22 s
  | .bmi imm22 => Sys2Proof.Machine.execBmi imm22 s
  | .bpl imm22 => Sys2Proof.Machine.execBpl imm22 s
  | .bvs imm22 => Sys2Proof.Machine.execBvs imm22 s
  | .bvc imm22 => Sys2Proof.Machine.execBvc imm22 s
  | .bhi imm22 => Sys2Proof.Machine.execBhi imm22 s
  | .bls imm22 => Sys2Proof.Machine.execBls imm22 s
  | .bge imm22 => Sys2Proof.Machine.execBge imm22 s
  | .blt imm22 => Sys2Proof.Machine.execBlt imm22 s
  | .bgt imm22 => Sys2Proof.Machine.execBgt imm22 s
  | .ble imm22 => Sys2Proof.Machine.execBle imm22 s
  | .bal imm22 => Sys2Proof.Machine.execBal imm22 s
  | .jal rd imm21 => Sys2Proof.Machine.execJal rd imm21 s
  | .jalrR rd rs1 rs2 => Sys2Proof.Machine.execJalrR rd rs1 rs2 s
  | .jalrI rd rs1 imm15 => Sys2Proof.Machine.execJalrI rd rs1 imm15 s
  | .jala rd imm21 => Sys2Proof.Machine.execJala rd imm21 s
  | .halt => Sys2Proof.Machine.execHalt s
  | .swi imm15 => Sys2Proof.Machine.execSwi imm15 s
  | .rti => Sys2Proof.Machine.execRti s
  | .mfsrStatus rd => Sys2Proof.Machine.execMfsrStatus rd s
  | .mfsrCause rd => Sys2Proof.Machine.execMfsrCause rd s
  | .mfsrEaddr rd => Sys2Proof.Machine.execMfsrEaddr rd s
  | .mfsrEpc rd => Sys2Proof.Machine.execMfsrEpc rd s
  | .mfsrEflags rd => Sys2Proof.Machine.execMfsrEflags rd s
  | .mfsrFlags rd => Sys2Proof.Machine.execMfsrFlags rd s
  | .mfsrIpend rd => Sys2Proof.Machine.execMfsrIpend rd s
  | .mtsrStatus rs1 => Sys2Proof.Machine.execMtsrStatus rs1 s
  | .mtsrCause rs1 => Sys2Proof.Machine.execMtsrCause rs1 s
  | .mtsrEaddr rs1 => Sys2Proof.Machine.execMtsrEaddr rs1 s
  | .mtsrEpc rs1 => Sys2Proof.Machine.execMtsrEpc rs1 s
  | .mtsrEflags rs1 => Sys2Proof.Machine.execMtsrEflags rs1 s
  | .mtsrFlags rs1 => Sys2Proof.Machine.execMtsrFlags rs1 s
  | .nop => Sys2Proof.Machine.execNop s

end Sys2Proof.Machine
end

