-- ==== Sys2Proof/Machine/Fetch.lean ====
section
/-! DEFINITION. The start of a step (spec/60_exceptions.md R205, R212): what an instruction boundary settles by itself, and the fetch and
decode of the instruction that otherwise runs. -/

namespace Sys2Proof.Machine

/-- How a step begins: it is settled without running an instruction, or it runs one. -/
inductive Boundary where
  /-- No instruction runs: halted, halt request, interrupt, or a trap of the fetch or of the decoder. -/
  | settled (r : State × StepResult)
  /-- The instruction at pc runs. -/
  | run (i : Instr)

/-- `w <- MemRead(pc, 4)` (spec/20_memory.md R57). -/
def State.fetchWord (s : State) : Word := s.memRead s.pc 4

/-- The fetch and decode of a step (spec/60_exceptions.md R205): `Check(pc, 4)`, then `decode(w)`. -/
def fetchDecode (s : State) : Boundary :=
  match s.check s.pc 4 with
  | some k => .settled (takeSync (trapMemory k s.pc) s)
  | none =>
    match decode s.fetchWord with
    | .error _ => .settled (takeSync (trapUndecoded s.fetchWord) s)
    | .ok i => .run i

/-- The boundary: the halted state, then the halt request, then the external interrupt, then the instruction at pc
(spec/60_exceptions.md R205, R212). -/
def boundary (s : State) : Boundary :=
  if s.halted then .settled (s, .alreadyHalted)
  else if s.haltReq then .settled (haltWith .externalHalt { s with haltReq := false })
  else if s.irq ∧ s.status.ie then .settled (vectorTrap trapExternal s.pc s)
  else fetchDecode s

/-- The memory with an instruction's table bits stored at pc; unchanged when pc names no word of memory. -/
def memWithFetchWord (s : State) (nbits w : Nat) : Memory :=
  match s.check s.pc 4 with
  | some _ => s.mem
  | none => Memory.writeBytes s.mem s.pc.toNat (tableBytes nbits w)

end Sys2Proof.Machine
end

