-- ==== Sys2Proof/Machine/Step.lean ====
section
/-! DEFINITION. One step of the core (spec/60_exceptions.md R205). -/

namespace Sys2Proof.Machine

/-- `step()`: the boundary settles the step, or the decoded instruction runs (spec/60_exceptions.md R205). The core never stops the
model: a halted core answers its own state again (R225). -/
def step (s : State) : Host.Outcome State Fault Refusal :=
  match boundary s with
  | .settled r => .next r.1
  | .run i => exec i s

/-- The state with an instruction's word stored where the next step fetches, at pc; it stands for the host's `load_image`
(spec/70_reset_and_hazards.md R253, notes/assumptions/4.md). -/
def State.withFetchWord (s : State) (nbits w : Nat) : State := { s with mem := memWithFetchWord s nbits w }

end Sys2Proof.Machine
end

