-- ==== Sys2Proof/Machine/Assembler.lean ====
section
/-! DEFINITION. The spec's assembler over source lines as terms (spec/30_encoding.md R94-R97): which row a line becomes, the
expansion of each pseudo-instruction, and a line's text. -/

namespace Sys2Proof.Machine

/-- An integer literal in a field of `k` bits, two's complement. -/
def literal (k : Nat) (n : Int) : BitVec k := BitVec.ofInt k n

/-- Format R when the last operand is a register, format I when it is an integer literal (spec/30_encoding.md R94). -/
def pickForm (src : AsmSrc) (formR : RegIdx → Instr) (formI : BitVec 15 → Instr) : Instr :=
  match src with
  | .reg r => formR r
  | .lit n => formI (literal 15 n)

/-- The row of an arithmetic source line. -/
def assembleArith (op : Aop) (rd rs1 : RegIdx) (src : AsmSrc) : Instr :=
  match op with
  | .add => pickForm src (.addR rd rs1) (.addI rd rs1)
  | .sub => pickForm src (.subR rd rs1) (.subI rd rs1)
  | .and => pickForm src (.andR rd rs1) (.andI rd rs1)
  | .or => pickForm src (.orR rd rs1) (.orI rd rs1)
  | .xor => pickForm src (.xorR rd rs1) (.xorI rd rs1)
  | .shl => pickForm src (.shlR rd rs1) (.shlI rd rs1)
  | .shr => pickForm src (.shrR rd rs1) (.shrI rd rs1)
  | .sar => pickForm src (.sarR rd rs1) (.sarI rd rs1)
  | .mul => pickForm src (.mulR rd rs1) (.mulI rd rs1)
  | .div => pickForm src (.divR rd rs1) (.divI rd rs1)
  | .divu => pickForm src (.divuR rd rs1) (.divuI rd rs1)
  | .rem => pickForm src (.remR rd rs1) (.remI rd rs1)
  | .remu => pickForm src (.remuR rd rs1) (.remuI rd rs1)

/-- The row of a base-register load. -/
def assembleLoad (op : LoadOp) (rd rs1 : RegIdx) (off : AsmSrc) : Instr :=
  match op with
  | .ldb => pickForm off (.ldbR rd rs1) (.ldbI rd rs1)
  | .ldbu => pickForm off (.ldbuR rd rs1) (.ldbuI rd rs1)
  | .ldh => pickForm off (.ldhR rd rs1) (.ldhI rd rs1)
  | .ldhu => pickForm off (.ldhuR rd rs1) (.ldhuI rd rs1)
  | .ldw => pickForm off (.ldwR rd rs1) (.ldwI rd rs1)

/-- The row of a base-register store. -/
def assembleStore (op : StoreOp) (rd rs1 : RegIdx) (off : AsmSrc) : Instr :=
  match op with
  | .stb => pickForm off (.stbR rd rs1) (.stbI rd rs1)
  | .sth => pickForm off (.sthR rd rs1) (.sthI rd rs1)
  | .stw => pickForm off (.stwR rd rs1) (.stwI rd rs1)

/-- The row of an absolute load. -/
def assembleLoadAbs (op : LoadOp) (rd : RegIdx) (a : BitVec 21) : Instr :=
  match op with
  | .ldb => .ldba rd a
  | .ldbu => .ldbua rd a
  | .ldh => .ldha rd a
  | .ldhu => .ldhua rd a
  | .ldw => .ldwa rd a

/-- The row of an absolute store. -/
def assembleStoreAbs (op : StoreOp) (rd : RegIdx) (a : BitVec 21) : Instr :=
  match op with
  | .stb => .stba rd a
  | .sth => .stha rd a
  | .stw => .stwa rd a

/-- The row of a conditional branch. -/
def assembleBcc (c : Cond) (imm22 : BitVec 22) : Instr :=
  match c with
  | .eq => .beq imm22
  | .ne => .bne imm22
  | .lo => .blo imm22
  | .hs => .bhs imm22
  | .mi => .bmi imm22
  | .pl => .bpl imm22
  | .vs => .bvs imm22
  | .vc => .bvc imm22
  | .hi => .bhi imm22
  | .ls => .bls imm22
  | .ge => .bge imm22
  | .lt => .blt imm22
  | .gt => .bgt imm22
  | .le => .ble imm22
  | .al => .bal imm22

/-- The row of MFSR for a CSR. -/
def assembleMfsr (rd : RegIdx) (c : Csr) : Instr :=
  match c with
  | .status => .mfsrStatus rd
  | .cause => .mfsrCause rd
  | .eaddr => .mfsrEaddr rd
  | .epc => .mfsrEpc rd
  | .eflags => .mfsrEflags rd
  | .flags => .mfsrFlags rd
  | .ipend => .mfsrIpend rd

/-- The row of MTSR for a CSR; IPEND has none. -/
def assembleMtsr (c : Csr) (rs1 : RegIdx) : Option Instr :=
  match c with
  | .status => some (.mtsrStatus rs1)
  | .cause => some (.mtsrCause rs1)
  | .eaddr => some (.mtsrEaddr rs1)
  | .epc => some (.mtsrEpc rs1)
  | .eflags => some (.mtsrEflags rs1)
  | .flags => some (.mtsrFlags rs1)
  | .ipend => none

/-- The instruction of a source line at address `pc`, its literals taken as they are; offsets are `(target - pc) / 4` and
`addr / 4` (spec/30_encoding.md R95). -/
def assembleUnchecked (pc : Word) : Asm → Option Instr
  | .arith op rd rs1 src => some (assembleArith op rd rs1 src)
  | .cmp rs1 src => some (pickForm src (.cmpR rs1) (.cmpI rs1))
  | .tst rs1 src => some (pickForm src (.tstR rs1) (.tstI rs1))
  | .lui rd imm => some (.lui rd (literal 21 imm))
  | .load op rd rs1 off => some (assembleLoad op rd rs1 off)
  | .store op rd rs1 off => some (assembleStore op rd rs1 off)
  | .loadAbs op rd addr => some (assembleLoadAbs op rd (literal 21 addr))
  | .storeAbs op rd addr => some (assembleStoreAbs op rd (literal 21 addr))
  | .bcc c target => some (assembleBcc c (literal 22 ((target - pc.toNat) / 4)))
  | .jal rd target => some (.jal rd (literal 21 ((target - pc.toNat) / 4)))
  | .jalr rd rs1 src => some (pickForm src (.jalrR rd rs1) (.jalrI rd rs1))
  | .jala rd addr => some (.jala rd (literal 21 (addr / 4)))
  | .halt => some .halt
  | .swi imm => some (.swi (literal 15 imm))
  | .rti => some .rti
  | .mfsr rd c => some (assembleMfsr rd c)
  | .mtsr c rs1 => assembleMtsr c rs1
  | .nop => some .nop

/-- Assemble one source line at address `pc`; a line outside the ranges of R95 is rejected. -/
def assemble (pc : Word) (a : Asm) : Option Instr :=
  if Asm.WellFormed pc a then assembleUnchecked pc a else none

/-- The expansion of a pseudo-instruction (spec/30_encoding.md R96). For LI a literal is a 32-bit value, -2^31 .. 2^32-1
(DEDUCED, notes/assumptions/8.md); others are rejected. -/
def expandPseudo : Pseudo → Option (List Asm)
  | .loadAddr rd addr => some [.loadAbs .ldw rd addr]
  | .loadBase rd rs1 imm => some [.load .ldw rd rs1 (.lit imm)]
  | .storeAddr rs addr => some [.storeAbs .stw rs addr]
  | .mov rd rs => some [.arith .add rd rs (.lit 0)]
  | .li rd imm =>
    if imm15InRange imm then some [.arith .add rd 0#5 (.lit imm)]
    else if -2 ^ 31 ≤ imm ∧ imm < 2 ^ 32 then
      let v : Word := BitVec.ofInt 32 imm
      some [.lui rd (v.extractLsb' 11 21).toNat, .arith .or rd rd (.lit (v.extractLsb' 0 11).toNat)]
    else none
  | .neg rd rs => some [.arith .sub rd 0#5 (.reg rs)]
  | .not rd rs => some [.arith .xor rd rs (.lit (-1))]
  | .b target => some [.bcc .al target]
  | .bcs target => some [.bcc .lo target]
  | .bcc target => some [.bcc .hs target]
  | .jmp target => some [.jal 0#5 target]
  | .call target => some [.jal 31#5 target]
  | .ret => some [.jalr 0#5 31#5 (.lit 0)]
  | .jr rs => some [.jalr 0#5 rs (.lit 0)]

/-- Assemble a list of lines, the first at address `pc`, each line one word further (spec/30_encoding.md R70). -/
def assembleAll (pc : Word) : List Asm → Option (List Instr)
  | [] => some []
  | a :: as =>
    match assemble pc a, assembleAll (pc + 4#32) as with
    | some i, some is => some (i :: is)
    | _, _ => none

/-- The words of a pseudo-instruction at address `pc`. -/
def assemblePseudo (pc : Word) (p : Pseudo) : Option (List Instr) :=
  match expandPseudo p with
  | some as => assembleAll pc as
  | none => none

/-! ### The text of a line (spec/00_scope.md R12, spec/30_encoding.md R94, R95) -/

/-- A register's name, `r0` .. `r31`. -/
def regText (r : RegIdx) : String := "r" ++ toString r.toNat

/-- A register or a decimal literal. -/
def srcText : AsmSrc → String
  | .reg r => regText r
  | .lit n => toString n

/-- A memory operand in brackets: `[rs1 + rs2]`, `[rs1 + imm]`, `[rs1 - k]`. -/
def baseText (rs1 : RegIdx) : AsmSrc → String
  | .reg r => "[" ++ regText rs1 ++ " + " ++ regText r ++ "]"
  | .lit n =>
    if n < 0 then "[" ++ regText rs1 ++ " - " ++ toString (-n) ++ "]" else "[" ++ regText rs1 ++ " + " ++ toString n ++ "]"

/-- The mnemonics of the arithmetic operations. -/
def aopText : Aop → String
  | .add => "ADD"
  | .sub => "SUB"
  | .and => "AND"
  | .or => "OR"
  | .xor => "XOR"
  | .shl => "SHL"
  | .shr => "SHR"
  | .sar => "SAR"
  | .mul => "MUL"
  | .div => "DIV"
  | .divu => "DIVU"
  | .rem => "REM"
  | .remu => "REMU"

/-- The mnemonics of the loads. -/
def loadText : LoadOp → String
  | .ldb => "LDB"
  | .ldbu => "LDBU"
  | .ldh => "LDH"
  | .ldhu => "LDHU"
  | .ldw => "LDW"

/-- The mnemonics of the stores. -/
def storeText : StoreOp → String
  | .stb => "STB"
  | .sth => "STH"
  | .stw => "STW"

/-- The condition names (spec/30_encoding.md R91). -/
def condText : Cond → String
  | .eq => "EQ"
  | .ne => "NE"
  | .lo => "LO"
  | .hs => "HS"
  | .mi => "MI"
  | .pl => "PL"
  | .vs => "VS"
  | .vc => "VC"
  | .hi => "HI"
  | .ls => "LS"
  | .ge => "GE"
  | .lt => "LT"
  | .gt => "GT"
  | .le => "LE"
  | .al => "AL"

/-- The control-register names (spec/00_scope.md R12). -/
def csrText : Csr → String
  | .status => "STATUS"
  | .cause => "CAUSE"
  | .eaddr => "EADDR"
  | .epc => "EPC"
  | .eflags => "EFLAGS"
  | .flags => "FLAGS"
  | .ipend => "IPEND"

/-- A mnemonic and its operands, separated by commas, destination first (spec/30_encoding.md R94). -/
def lineText (mnemonic : String) (operands : List String) : String := mnemonic ++ " " ++ ", ".intercalate operands

/-- The text of a source line. -/
def asmText : Asm → String
  | .arith op rd rs1 src => lineText (aopText op) [regText rd, regText rs1, srcText src]
  | .cmp rs1 src => lineText "CMP" [regText rs1, srcText src]
  | .tst rs1 src => lineText "TST" [regText rs1, srcText src]
  | .lui rd imm => lineText "LUI" [regText rd, toString imm]
  | .load op rd rs1 off => lineText (loadText op) [regText rd, baseText rs1 off]
  | .store op rd rs1 off => lineText (storeText op) [regText rd, baseText rs1 off]
  | .loadAbs op rd addr => lineText (loadText op ++ "A") [regText rd, "[" ++ toString addr ++ "]"]
  | .storeAbs op rd addr => lineText (storeText op ++ "A") [regText rd, "[" ++ toString addr ++ "]"]
  | .bcc c target => lineText ("B" ++ condText c) [toString target]
  | .jal rd target => lineText "JAL" [regText rd, toString target]
  | .jalr rd rs1 src => lineText "JALR" [regText rd, regText rs1, srcText src]
  | .jala rd addr => lineText "JALA" [regText rd, toString addr]
  | .halt => "HALT"
  | .swi imm => lineText "SWI" [toString imm]
  | .rti => "RTI"
  | .mfsr rd c => lineText "MFSR" [regText rd, csrText c]
  | .mtsr c rs1 => lineText "MTSR" [csrText c, regText rs1]
  | .nop => "NOP"

end Sys2Proof.Machine
end

