-- ==== Sys2Proof/Machine/Effects.lean ====
section
/-! DEFINITION. `execute(i, w)` of spec/60_exceptions.md R205: the state an instruction's pseudocode writes and its ControlEffect (R206), before
that effect is applied. `exec` is this with the effect applied; the step's result to the host (R223) is read from it. -/

namespace Sys2Proof.Machine

/-- `execute(i, w)`, with w the word of `i` (spec/60_exceptions.md R205, R206). -/
def execute (i : Instr) (s : State) : State × Effect :=
  match i with
  | .addR rd rs1 rs2 => effAdd rd rs1 (.reg rs2) s
  | .addI rd rs1 imm15 => effAdd rd rs1 (.imm imm15) s
  | .subR rd rs1 rs2 => effSub rd rs1 (.reg rs2) s
  | .subI rd rs1 imm15 => effSub rd rs1 (.imm imm15) s
  | .andR rd rs1 rs2 => effAnd rd rs1 (.reg rs2) s
  | .andI rd rs1 imm15 => effAnd rd rs1 (.imm imm15) s
  | .orR rd rs1 rs2 => effOr rd rs1 (.reg rs2) s
  | .orI rd rs1 imm15 => effOr rd rs1 (.imm imm15) s
  | .xorR rd rs1 rs2 => effXor rd rs1 (.reg rs2) s
  | .xorI rd rs1 imm15 => effXor rd rs1 (.imm imm15) s
  | .shlR rd rs1 rs2 => effShl rd rs1 (.reg rs2) s
  | .shlI rd rs1 imm15 => effShl rd rs1 (.imm imm15) s
  | .shrR rd rs1 rs2 => effShr rd rs1 (.reg rs2) s
  | .shrI rd rs1 imm15 => effShr rd rs1 (.imm imm15) s
  | .sarR rd rs1 rs2 => effSar rd rs1 (.reg rs2) s
  | .sarI rd rs1 imm15 => effSar rd rs1 (.imm imm15) s
  | .mulR rd rs1 rs2 => effMul rd rs1 (.reg rs2) s
  | .mulI rd rs1 imm15 => effMul rd rs1 (.imm imm15) s
  | .divR rd rs1 rs2 => effDiv rd rs1 (.reg rs2) s
  | .divI rd rs1 imm15 => effDiv rd rs1 (.imm imm15) s
  | .divuR rd rs1 rs2 => effDivu rd rs1 (.reg rs2) s
  | .divuI rd rs1 imm15 => effDivu rd rs1 (.imm imm15) s
  | .remR rd rs1 rs2 => effRem rd rs1 (.reg rs2) s
  | .remI rd rs1 imm15 => effRem rd rs1 (.imm imm15) s
  | .remuR rd rs1 rs2 => effRemu rd rs1 (.reg rs2) s
  | .remuI rd rs1 imm15 => effRemu rd rs1 (.imm imm15) s
  | .cmpR rs1 rs2 => effCmp rs1 (.reg rs2) s
  | .cmpI rs1 imm15 => effCmp rs1 (.imm imm15) s
  | .tstR rs1 rs2 => effTst rs1 (.reg rs2) s
  | .tstI rs1 imm15 => effTst rs1 (.imm imm15) s
  | .lui rd imm21 => effLui rd imm21 s
  | .ldbR rd rs1 rs2 => effLdb rd (.base rs1 (.reg rs2)) s
  | .ldbI rd rs1 imm15 => effLdb rd (.base rs1 (.imm imm15)) s
  | .ldbuR rd rs1 rs2 => effLdbu rd (.base rs1 (.reg rs2)) s
  | .ldbuI rd rs1 imm15 => effLdbu rd (.base rs1 (.imm imm15)) s
  | .ldhR rd rs1 rs2 => effLdh rd (.base rs1 (.reg rs2)) s
  | .ldhI rd rs1 imm15 => effLdh rd (.base rs1 (.imm imm15)) s
  | .ldhuR rd rs1 rs2 => effLdhu rd (.base rs1 (.reg rs2)) s
  | .ldhuI rd rs1 imm15 => effLdhu rd (.base rs1 (.imm imm15)) s
  | .ldwR rd rs1 rs2 => effLdw rd (.base rs1 (.reg rs2)) s
  | .ldwI rd rs1 imm15 => effLdw rd (.base rs1 (.imm imm15)) s
  | .stbR rd rs1 rs2 => effStb rd (.base rs1 (.reg rs2)) s
  | .stbI rd rs1 imm15 => effStb rd (.base rs1 (.imm imm15)) s
  | .sthR rd rs1 rs2 => effSth rd (.base rs1 (.reg rs2)) s
  | .sthI rd rs1 imm15 => effSth rd (.base rs1 (.imm imm15)) s
  | .stwR rd rs1 rs2 => effStw rd (.base rs1 (.reg rs2)) s
  | .stwI rd rs1 imm15 => effStw rd (.base rs1 (.imm imm15)) s
  | .ldba rd imm21 => effLdb rd (.abs imm21) s
  | .ldbua rd imm21 => effLdbu rd (.abs imm21) s
  | .ldha rd imm21 => effLdh rd (.abs imm21) s
  | .ldhua rd imm21 => effLdhu rd (.abs imm21) s
  | .ldwa rd imm21 => effLdw rd (.abs imm21) s
  | .stba rd imm21 => effStb rd (.abs imm21) s
  | .stha rd imm21 => effSth rd (.abs imm21) s
  | .stwa rd imm21 => effStw rd (.abs imm21) s
  | .beq imm22 => effBcc .eq imm22 s
  | .bne imm22 => effBcc .ne imm22 s
  | .blo imm22 => effBcc .lo imm22 s
  | .bhs imm22 => effBcc .hs imm22 s
  | .bmi imm22 => effBcc .mi imm22 s
  | .bpl imm22 => effBcc .pl imm22 s
  | .bvs imm22 => effBcc .vs imm22 s
  | .bvc imm22 => effBcc .vc imm22 s
  | .bhi imm22 => effBcc .hi imm22 s
  | .bls imm22 => effBcc .ls imm22 s
  | .bge imm22 => effBcc .ge imm22 s
  | .blt imm22 => effBcc .lt imm22 s
  | .bgt imm22 => effBcc .gt imm22 s
  | .ble imm22 => effBcc .le imm22 s
  | .bal imm22 => effBcc .al imm22 s
  | .jal rd imm21 => effJal rd imm21 s
  | .jalrR rd rs1 rs2 => effJalr rd rs1 (.reg rs2) s
  | .jalrI rd rs1 imm15 => effJalr rd rs1 (.imm imm15) s
  | .jala rd imm21 => effJala rd imm21 s
  | .halt => effHalt s
  | .swi imm15 => effSwi imm15 s
  | .rti => effRti s
  | .mfsrStatus rd => effMfsr .status rd (encode (.mfsrStatus rd)) s
  | .mfsrCause rd => effMfsr .cause rd (encode (.mfsrCause rd)) s
  | .mfsrEaddr rd => effMfsr .eaddr rd (encode (.mfsrEaddr rd)) s
  | .mfsrEpc rd => effMfsr .epc rd (encode (.mfsrEpc rd)) s
  | .mfsrEflags rd => effMfsr .eflags rd (encode (.mfsrEflags rd)) s
  | .mfsrFlags rd => effMfsr .flags rd (encode (.mfsrFlags rd)) s
  | .mfsrIpend rd => effMfsr .ipend rd (encode (.mfsrIpend rd)) s
  | .mtsrStatus rs1 => effMtsr .status rs1 (encode (.mtsrStatus rs1)) s
  | .mtsrCause rs1 => effMtsr .cause rs1 (encode (.mtsrCause rs1)) s
  | .mtsrEaddr rs1 => effMtsr .eaddr rs1 (encode (.mtsrEaddr rs1)) s
  | .mtsrEpc rs1 => effMtsr .epc rs1 (encode (.mtsrEpc rs1)) s
  | .mtsrEflags rs1 => effMtsr .eflags rs1 (encode (.mtsrEflags rs1)) s
  | .mtsrFlags rs1 => effMtsr .flags rs1 (encode (.mtsrFlags rs1)) s
  | .nop => effNop s

end Sys2Proof.Machine
end

