-- ==== Sys2Proof/Machine/Harness.lean ====
section
/-! DEFINITION. The host's calls, the boundary of the core (spec/00_scope.md R5): what the host can do between steps and what it reads
back (spec/60_exceptions.md R223-R228, spec/70_reset_and_hazards.md R250-R253, R260). A refused call answers none and changes nothing. -/

namespace Sys2Proof.Machine

/-! ### Construction (spec/70_reset_and_hazards.md R250, R251) -/

/-- A handler entry that is present passes `TargetOk`; an absent one is legal (spec/70_reset_and_hazards.md R251). -/
def handlerOk (cap : Nat) : Option Word → Bool
  | none => true
  | some h => targetOk cap h

/-- The construction checks; the entry of the double fault is not looked at (spec/70_reset_and_hazards.md R251). -/
def Config.valid (cfg : Config) : Bool :=
  decide (4 ≤ cfg.memCapacity) && decide (cfg.memCapacity ≤ 2 ^ 32) && targetOk cfg.memCapacity cfg.entryPoint
    && handlerOk cfg.memCapacity cfg.vectors.illegalOpcode && handlerOk cfg.memCapacity cfg.vectors.memoryFault
    && handlerOk cfg.memCapacity cfg.vectors.divideByZero && handlerOk cfg.memCapacity cfg.vectors.softwareInterrupt
    && handlerOk cfg.memCapacity cfg.vectors.externalInterrupt

/-- `new(MEM_CAPACITY, ENTRY_POINT, VECTOR_TABLE)`: a core in the reset state, or refused (spec/70_reset_and_hazards.md R250, R251). -/
def construct (cfg : Config) : Option State := if Config.valid cfg then some (State.initial cfg) else none

/-! ### Loading, interrupts and halt requests -/

/-- `load_image(bytes, origin)`: refused when `origin + L > MEM_CAPACITY`, else the bytes are copied and nothing else changes
(spec/70_reset_and_hazards.md R253). -/
def loadImage (bytes : List Byte) (origin : Word) (s : State) : Option State :=
  if origin.toNat + bytes.length > s.cfg.memCapacity then none
  else some { s with mem := Memory.writeBytes s.mem origin.toNat bytes }

/-- `inject_interrupt(cause)`: accepts only ExternalInterrupt and sets `irq` (spec/60_exceptions.md R227). -/
def injectInterrupt (c : Cause) (s : State) : Option State :=
  if c = .externalInterrupt then some { s with irq := true } else none

/-- `request_halt()`: sets `halt_req` (spec/60_exceptions.md R226). -/
def requestHalt (s : State) : State := { s with haltReq := true }

/-! ### Inspection (spec/60_exceptions.md R228) -/

/-- `read_register(i)`: refused for i above 31. -/
def readRegister (s : State) (i : Nat) : Option Word := if i ≤ 31 then some (s.reg (BitVec.ofNat 5 i)) else none

/-- What `read_memory` returns: refused, the MemoryFault with its kind and address, or the value. -/
inductive HostRead where
  | refused
  | fault (kind : FaultKind) (address : Word)
  | value (v : Word)
deriving DecidableEq, Repr

/-- `read_memory(addr, width)`: any width but 1, 2 and 4 is refused; a fault goes to the host, no trap is raised. -/
def readMemory (s : State) (addr : Word) (width : Nat) : HostRead :=
  if width = 1 ∨ width = 2 ∨ width = 4 then
    match s.check addr width with
    | some k => .fault k addr
    | none => .value (s.memRead addr width)
  else .refused

/-- `halted()`. -/
def isHalted (s : State) : Bool := s.halted

/-! ### Stepping and running (spec/60_exceptions.md R223, R224) -/

/-- `step()` with its StepResult: the state after, and what is returned (spec/60_exceptions.md R205, R223). -/
def hostStep (s : State) : State × StepResult :=
  match boundary s with
  | .settled r => r
  | .run i => applyEffect (execute i s)

/-- The reason a `run` ended. The halt reason is the state's field, none only in a state that is halted without one, which
no step makes. -/
inductive RunReason where
  | halted (reason : Option HaltReason)
  | budgetExhausted
deriving DecidableEq, Repr

/-- RunResult: the reason, the last StepResult, the number of steps, and the terminal Execution Context. -/
structure RunResult where
  reason : RunReason
  last : Option StepResult
  steps : Nat
  context : State
deriving DecidableEq, Repr

/-- The loop of `run` with `budget` steps left, after `k` steps of which the last answered `last`. -/
def runLoop : Nat → Option StepResult → Nat → State → RunResult
  | 0, last, k, s =>
    if s.halted then { reason := .halted s.haltReason, last := last, steps := k, context := s }
    else { reason := .budgetExhausted, last := last, steps := k, context := s }
  | budget + 1, last, k, s =>
    if s.halted then { reason := .halted s.haltReason, last := last, steps := k, context := s }
    else runLoop budget (some (hostStep s).2) (k + 1) (hostStep s).1

/-- `run(max_steps)` (spec/60_exceptions.md R224). -/
def run (maxSteps : Nat) (s : State) : RunResult := runLoop maxSteps none 0 s

end Sys2Proof.Machine
end

