-- ==== Sys2Proof/Safety.lean ====
section
/-! DEFINITION. The terms the statements use: what stays unchanged, what taking a trap leaves, which instruction writes what, and the
invariant of the core. -/

namespace Sys2Proof.Machine

/-! ### What stays unchanged -/

/-- Every byte of memory reads as before. -/
def SameMemory (s t : State) : Prop := ∀ a : Nat, Memory.read t.mem a = Memory.read s.mem a

/-- Every general register reads as before. -/
def SameRegs (s t : State) : Prop := ∀ r : RegIdx, t.reg r = s.reg r

/-- Everything but pc, the general registers, the flags and memory is as before: the control and status registers, the latches, the
halted state and the construction parameters. -/
structure SameControl (s t : State) : Prop where
  cfg : t.cfg = s.cfg
  status : t.status = s.status
  cause : t.cause = s.cause
  eaddr : t.eaddr = s.eaddr
  epc : t.epc = s.epc
  eflags : t.eflags = s.eflags
  irq : t.irq = s.irq
  haltReq : t.haltReq = s.haltReq
  halted : t.halted = s.halted
  haltReason : t.haltReason = s.haltReason

/-- `x[rd] <- v` and no other general register changed; register 0 reads 0 whatever is written
(spec/10_state.md R21). -/
def WroteReg (rd : RegIdx) (v : Word) (s t : State) : Prop :=
  t.reg rd = (if rd = 0#5 then 0x00000000#32 else v) ∧ ∀ r : RegIdx, r ≠ rd → t.reg r = s.reg r

/-- The signed value fits in 32 bits. -/
def fitsSigned (x : Int) : Bool := decide (-2147483648 ≤ x) && decide (x ≤ 2147483647)

/-- The flags of a subtraction `a - b`: C the unsigned borrow, V the signed overflow (spec/40_arithmetic.md R103). -/
def subFlags (a b : Word) : Flags :=
  { c := decide (a.toNat < b.toNat), z := decide (a = b), n := (a - b).msb, v := !fitsSigned (a.toInt - b.toInt) }

/-- The flags of a bitwise result: Z and N of it, C and V cleared (spec/40_arithmetic.md R104). -/
def logicFlags (r : Word) : Flags := { c := false, z := decide (r = 0#32), n := r.msb, v := false }

/-- The shift amount of `b`: only bits 4:0 count (spec/40_arithmetic.md R107). -/
def amount (b : Word) : Nat := b.toNat % 32

/-- A completed instruction of the arithmetic family: `x[rd] <- v`, the four flags, pc + 4, nothing else. -/
structure ArithDone (rd : RegIdx) (v : Word) (f : Flags) (s t : State) : Prop where
  reg : WroteReg rd v s t
  flags : t.flags = f
  pc : t.pc = s.pc + 4#32
  control : SameControl s t
  mem : SameMemory s t

/-- A completed CMP or TST: the four flags, pc + 4, nothing else. -/
structure FlagsDone (f : Flags) (s t : State) : Prop where
  regs : SameRegs s t
  flags : t.flags = f
  pc : t.pc = s.pc + 4#32
  control : SameControl s t
  mem : SameMemory s t

/-- A completed instruction that writes one general register and no flag. -/
structure MoveDone (rd : RegIdx) (v npc : Word) (s t : State) : Prop where
  reg : WroteReg rd v s t
  flags : t.flags = s.flags
  pc : t.pc = npc
  control : SameControl s t
  mem : SameMemory s t

/-- A completed store of the low `n` bytes of `v` at `ea`, little-endian: those bytes, pc + 4, nothing else. -/
structure StoreDone (ea : Word) (n : Nat) (v : Word) (s t : State) : Prop where
  stored : ∀ k : Nat, k < n → Memory.read t.mem (ea.toNat + k) = v.extractLsb' (8 * k) 8
  others : ∀ a : Nat, (a < ea.toNat ∨ ea.toNat + n ≤ a) → Memory.read t.mem a = Memory.read s.mem a
  regs : SameRegs s t
  flags : t.flags = s.flags
  pc : t.pc = s.pc + 4#32
  control : SameControl s t

/-! ### Traps -/

/-- The core halted with this reason and nothing else changed (spec/60_exceptions.md R215). -/
def HaltedWith (r : HaltReason) (s t : State) : Prop := t = { s with halted := true, haltReason := some r }

/-- What trap entry to handler `h` leaves (spec/60_exceptions.md R210), but for the pending latch. -/
structure HandlerEntered (causeWord eaddr epc h : Word) (s t : State) : Prop where
  pc : t.pc = h
  epc : t.epc = epc
  savedC : t.eflags.getLsbD 0 = s.flags.c
  savedZ : t.eflags.getLsbD 1 = s.flags.z
  savedN : t.eflags.getLsbD 2 = s.flags.n
  savedV : t.eflags.getLsbD 3 = s.flags.v
  cause : t.cause = causeWord
  eaddr : t.eaddr = eaddr
  status : t.status = { ie := false, priv := true, pie := s.status.ie, ppriv := s.status.priv, inh := true }
  regs : SameRegs s t
  flags : t.flags = s.flags
  mem : SameMemory s t
  cfg : t.cfg = s.cfg
  haltReq : t.haltReq = s.haltReq
  halted : t.halted = s.halted
  haltReason : t.haltReason = s.haltReason

/-- A synchronous trap was taken from `s` (spec/60_exceptions.md R209, R210, R214, R216): a double fault when INH = 1 and IE = 0, an unhandled
halt without a handler, else trap entry with EPC the address of the instruction. -/
def TrapTaken (tr : Trap) (causeWord : Word) (s t : State) : Prop :=
  if s.status.inh = true ∧ s.status.ie = false then HaltedWith (.doubleFault tr) s t
  else
    match VectorTable.handler s.cfg.vectors tr.cause with
    | none => HaltedWith (.unhandled tr) s t
    | some h => HandlerEntered causeWord tr.value s.pc h s t ∧ t.irq = s.irq

/-- What RTI leaves (spec/43_system.md R183). -/
structure ReturnDone (s t : State) : Prop where
  pc : t.pc = s.epc
  flags : t.flags =
    { c := s.eflags.getLsbD 0, z := s.eflags.getLsbD 1, n := s.eflags.getLsbD 2, v := s.eflags.getLsbD 3 }
  status : t.status =
    { ie := s.status.pie, priv := s.status.ppriv, pie := s.status.pie, ppriv := s.status.ppriv, inh := false }
  cause : t.cause = 0x00000000#32
  eaddr : t.eaddr = 0x00000000#32
  epc : t.epc = 0x00000000#32
  eflags : t.eflags = 0#4
  regs : SameRegs s t
  mem : SameMemory s t
  cfg : t.cfg = s.cfg
  irq : t.irq = s.irq
  haltReq : t.haltReq = s.haltReq
  halted : t.halted = s.halted
  haltReason : t.haltReason = s.haltReason

/-- The access of `n` bytes at `ea` passes the check of spec/20_memory.md R53. -/
abbrev AccessOk (s : State) (ea : Word) (n : Nat) : Prop := ea.toNat + n ≤ s.cfg.memCapacity ∧ ea.toNat % n = 0

/-- The core runs its next instruction at this boundary: not halted, no halt request, no enabled interrupt pending
(spec/60_exceptions.md R205). -/
abbrev Runs (s : State) : Prop := s.halted = false ∧ s.haltReq = false ∧ (s.irq = true → s.status.ie = false)

/-- The words that do not decode: a reserved opcode (spec/30_encoding.md R84), or another value in a constrained field (R85). -/
def IllegalWord (w : Word) : Prop :=
  let op := w.toNat / 2 ^ 26
  let rd := w.toNat / 2 ^ 21 % 32
  let rs1 := w.toNat / 2 ^ 16 % 32
  let m := w.toNat / 2 ^ 15 % 2
  let imm15 := w.toNat % 2 ^ 15
  let takesRI := op ≤ 0x0E ∨ (0x10 ≤ op ∧ op ≤ 0x17) ∨ op = 0x22
  (0x24 ≤ op ∧ op ≤ 0x2F) ∨ 0x36 ≤ op
  ∨ (takesRI ∧ m = 0 ∧ w.toNat % 2 ^ 10 ≠ 0)
  ∨ ((op = 0x0D ∨ op = 0x0E) ∧ rd ≠ 0)
  ∨ (op = 0x20 ∧ w.toNat / 2 ^ 22 % 16 = 15)
  ∨ ((op = 0x30 ∨ op = 0x32 ∨ op = 0x35) ∧ w.toNat % 2 ^ 26 ≠ 0)
  ∨ (op = 0x31 ∧ (rd ≠ 0 ∨ rs1 ≠ 0 ∨ m = 0))
  ∨ (op = 0x33 ∧ (rs1 ≠ 0 ∨ m = 0 ∨ imm15 > 6))
  ∨ (op = 0x34 ∧ (rd ≠ 0 ∨ m = 0 ∨ imm15 > 5))

/-! ### Which instruction does what -/

/-- The effective address and width of a load. -/
def loadAccess (i : Instr) (s : State) : Option (Word × Nat) :=
  match i with
  | .ldbR _ rs1 rs2 | .ldbuR _ rs1 rs2 => some (s.ea (.base rs1 (.reg rs2)), 1)
  | .ldbI _ rs1 imm15 | .ldbuI _ rs1 imm15 => some (s.ea (.base rs1 (.imm imm15)), 1)
  | .ldhR _ rs1 rs2 | .ldhuR _ rs1 rs2 => some (s.ea (.base rs1 (.reg rs2)), 2)
  | .ldhI _ rs1 imm15 | .ldhuI _ rs1 imm15 => some (s.ea (.base rs1 (.imm imm15)), 2)
  | .ldwR _ rs1 rs2 => some (s.ea (.base rs1 (.reg rs2)), 4)
  | .ldwI _ rs1 imm15 => some (s.ea (.base rs1 (.imm imm15)), 4)
  | .ldba _ imm21 | .ldbua _ imm21 => some (s.ea (.abs imm21), 1)
  | .ldha _ imm21 | .ldhua _ imm21 => some (s.ea (.abs imm21), 2)
  | .ldwa _ imm21 => some (s.ea (.abs imm21), 4)
  | _ => none

/-- The effective address, width and data register of a store. -/
def storeAccess (i : Instr) (s : State) : Option (Word × Nat × RegIdx) :=
  match i with
  | .stbR rd rs1 rs2 => some (s.ea (.base rs1 (.reg rs2)), 1, rd)
  | .stbI rd rs1 imm15 => some (s.ea (.base rs1 (.imm imm15)), 1, rd)
  | .sthR rd rs1 rs2 => some (s.ea (.base rs1 (.reg rs2)), 2, rd)
  | .sthI rd rs1 imm15 => some (s.ea (.base rs1 (.imm imm15)), 2, rd)
  | .stwR rd rs1 rs2 => some (s.ea (.base rs1 (.reg rs2)), 4, rd)
  | .stwI rd rs1 imm15 => some (s.ea (.base rs1 (.imm imm15)), 4, rd)
  | .stba rd imm21 => some (s.ea (.abs imm21), 1, rd)
  | .stha rd imm21 => some (s.ea (.abs imm21), 2, rd)
  | .stwa rd imm21 => some (s.ea (.abs imm21), 4, rd)
  | _ => none

/-- The general register an instruction writes (spec/10_state.md R23). -/
def destReg (i : Instr) : Option RegIdx :=
  match i with
  | .addR rd _ _ | .subR rd _ _ | .andR rd _ _ | .orR rd _ _ | .xorR rd _ _ | .shlR rd _ _ | .shrR rd _ _
  | .sarR rd _ _ | .mulR rd _ _ | .divR rd _ _ | .divuR rd _ _ | .remR rd _ _ | .remuR rd _ _ => some rd
  | .addI rd _ _ | .subI rd _ _ | .andI rd _ _ | .orI rd _ _ | .xorI rd _ _ | .shlI rd _ _ | .shrI rd _ _
  | .sarI rd _ _ | .mulI rd _ _ | .divI rd _ _ | .divuI rd _ _ | .remI rd _ _ | .remuI rd _ _ => some rd
  | .lui rd _ => some rd
  | .ldbR rd _ _ | .ldbuR rd _ _ | .ldhR rd _ _ | .ldhuR rd _ _ | .ldwR rd _ _ => some rd
  | .ldbI rd _ _ | .ldbuI rd _ _ | .ldhI rd _ _ | .ldhuI rd _ _ | .ldwI rd _ _ => some rd
  | .ldba rd _ | .ldbua rd _ | .ldha rd _ | .ldhua rd _ | .ldwa rd _ => some rd
  | .jal rd _ | .jala rd _ => some rd
  | .jalrR rd _ _ => some rd
  | .jalrI rd _ _ => some rd
  | .mfsrStatus rd | .mfsrCause rd | .mfsrEaddr rd | .mfsrEpc rd | .mfsrEflags rd | .mfsrFlags rd
  | .mfsrIpend rd => some rd
  | _ => none

/-- The instructions that write the flags (spec/10_state.md R27). -/
def writesFlags (i : Instr) : Bool :=
  match i with
  | .addR .. | .subR .. | .andR .. | .orR .. | .xorR .. | .shlR .. | .shrR .. | .sarR .. | .mulR .. | .divR ..
  | .divuR .. | .remR .. | .remuR .. | .cmpR .. | .tstR .. => true
  | .addI .. | .subI .. | .andI .. | .orI .. | .xorI .. | .shlI .. | .shrI .. | .sarI .. | .mulI .. | .divI ..
  | .divuI .. | .remI .. | .remuI .. | .cmpI .. | .tstI .. => true
  | .rti | .mtsrFlags _ => true
  | _ => false

/-- The instructions that by themselves, without a trap, write a control and status register, a latch or the halted state. -/
def writesControl (i : Instr) : Bool :=
  match i with
  | .halt | .rti | .mtsrStatus _ | .mtsrCause _ | .mtsrEaddr _ | .mtsrEpc _ | .mtsrEflags _ => true
  | _ => false

/-- The instructions that call `RequireSupervisor` (spec/43_system.md R180). -/
def privileged (i : Instr) : Bool :=
  match i with
  | .halt | .rti => true
  | .mfsrStatus _ | .mfsrCause _ | .mfsrEaddr _ | .mfsrEpc _ | .mfsrEflags _ | .mfsrIpend _ => true
  | .mtsrStatus _ | .mtsrCause _ | .mtsrEaddr _ | .mtsrEpc _ | .mtsrEflags _ => true
  | _ => false

/-- The number of a condition (spec/30_encoding.md R91). -/
def condNumber (c : Cond) : BitVec 4 :=
  match c with
  | .eq => 0#4
  | .ne => 1#4
  | .lo => 2#4
  | .hs => 3#4
  | .mi => 4#4
  | .pl => 5#4
  | .vs => 6#4
  | .vc => 7#4
  | .hi => 8#4
  | .ls => 9#4
  | .ge => 10#4
  | .lt => 11#4
  | .gt => 12#4
  | .le => 13#4
  | .al => 14#4

/-- The condition and offset of a conditional branch (spec/30_encoding.md R91). -/
def bccForm (i : Instr) : Option (Cond × BitVec 22) :=
  match i with
  | .beq o => some (.eq, o)
  | .bne o => some (.ne, o)
  | .blo o => some (.lo, o)
  | .bhs o => some (.hs, o)
  | .bmi o => some (.mi, o)
  | .bpl o => some (.pl, o)
  | .bvs o => some (.vs, o)
  | .bvc o => some (.vc, o)
  | .bhi o => some (.hi, o)
  | .bls o => some (.ls, o)
  | .bge o => some (.ge, o)
  | .blt o => some (.lt, o)
  | .bgt o => some (.gt, o)
  | .ble o => some (.le, o)
  | .bal o => some (.al, o)
  | _ => none

/-- The same state at a privilege level. -/
def State.atLevel (s : State) (supervisor : Bool) : State := { s with status := { s.status with priv := supervisor } }

/-- The same state with other values in what only the supervisor may read (spec/60_exceptions.md R221). -/
def State.withRecord (s : State) (pie ppriv : Bool) (cause eaddr epc : Word) (eflags : BitVec 4) : State :=
  { s with
    status := { s.status with pie := pie, ppriv := ppriv }
    cause := cause
    eaddr := eaddr
    epc := epc
    eflags := eflags }

/-- The same in everything a program in user mode, or the host that runs it, can see happen. -/
structure SameUserView (s t : State) : Prop where
  regs : t.regs = s.regs
  pc : t.pc = s.pc
  flags : t.flags = s.flags
  mem : t.mem = s.mem
  ie : t.status.ie = s.status.ie
  priv : t.status.priv = s.status.priv
  inh : t.status.inh = s.status.inh
  irq : t.irq = s.irq
  haltReq : t.haltReq = s.haltReq
  halted : t.halted = s.halted
  haltReason : t.haltReason = s.haltReason

/-- A list of instructions run one after another through `exec`. -/
def execAll : List Instr → State → Host.Outcome State Fault Refusal
  | [], s => .next s
  | i :: is, s =>
    match exec i s with
    | .next t => execAll is t
    | .fault f => .fault f
    | .refused r => .refused r

/-! ### The invariant -/

/-- What every step keeps: legal construction parameters, memory in canonical form inside its capacity, pc 4-aligned and not past the end
(spec/10_state.md R25), and a halt reason exactly when halted (R41). -/
structure State.Inv (s : State) : Prop where
  cfg : Config.valid s.cfg = true
  mem : Memory.wf s.cfg.memCapacity s.mem = true
  pcAligned : s.pc.toNat % 4 = 0
  pcInside : s.pc.toNat ≤ s.cfg.memCapacity
  reason : s.haltReason.isSome = s.halted

end Sys2Proof.Machine
end

