-- ==== Sys2Proof/Certificates/Slice0/Obligations.lean ====
section
/-! DEFINITION. The statements for the provers. Each is a Prop about the model, none is proved here. -/

open Sys2Proof Sys2Proof.Machine

/-! ### Shapes of statements -/

/-- Both forms of an RI instruction with opcode `op` complete, with `Post rd a b` for `a = x[rs1]` and `b = src2`
(spec/30_encoding.md R72, R73, R76). -/
def Sys2Proof.Machine.BothForms (op : BitVec 6) (formR : RegIdx → RegIdx → RegIdx → Instr)
    (formI : RegIdx → RegIdx → BitVec 15 → Instr) (Post : RegIdx → Word → Word → State → State → Prop) : Prop :=
  ∀ (rd rs1 : RegIdx) (s : State),
    (∀ rs2 : RegIdx, encode (formR rd rs1 rs2) = formatR op rd rs1 rs2 ∧
      ∃ t, exec (formR rd rs1 rs2) s = .next t ∧ Post rd (s.reg rs1) (s.reg rs2) s t) ∧
    (∀ imm15 : BitVec 15, encode (formI rd rs1 imm15) = formatI op rd rs1 imm15 ∧
      ∃ t, exec (formI rd rs1 imm15) s = .next t ∧ Post rd (s.reg rs1) (imm15.signExtend 32) s t)

/-- Both forms of a flag-only instruction with opcode `op`, its rd field 0, complete. -/
def Sys2Proof.Machine.BothFlagForms (op : BitVec 6) (formR : RegIdx → RegIdx → Instr) (formI : RegIdx → BitVec 15 → Instr)
    (Post : Word → Word → State → State → Prop) : Prop :=
  ∀ (rs1 : RegIdx) (s : State),
    (∀ rs2 : RegIdx, encode (formR rs1 rs2) = formatR op 0#5 rs1 rs2 ∧
      ∃ t, exec (formR rs1 rs2) s = .next t ∧ Post (s.reg rs1) (s.reg rs2) s t) ∧
    (∀ imm15 : BitVec 15, encode (formI rs1 imm15) = formatI op 0#5 rs1 imm15 ∧
      ∃ t, exec (formI rs1 imm15) s = .next t ∧ Post (s.reg rs1) (imm15.signExtend 32) s t)

/-- A division of `b` by anything: `Post` when the divisor is not 0, the DivideByZero trap when it is. -/
def Sys2Proof.Machine.DivideCases (i : Instr) (b : Word) (s : State) (Post : State → Prop) : Prop :=
  (b ≠ 0x00000000#32 → ∃ t, exec i s = .next t ∧ Post t) ∧
  (b = 0x00000000#32 → ∃ t, exec i s = .next t ∧ TrapTaken ⟨.divideByZero, 0#8, 0#32⟩ 0x00000003#32 s t)

/-- Both forms of a division with opcode `op`: the result, or the DivideByZero trap (detail 0, value 0) for a divisor 0. -/
def Sys2Proof.Machine.BothDivideForms (op : BitVec 6) (formR : RegIdx → RegIdx → RegIdx → Instr)
    (formI : RegIdx → RegIdx → BitVec 15 → Instr) (Post : RegIdx → Word → Word → State → State → Prop) : Prop :=
  ∀ (rd rs1 : RegIdx) (s : State),
    (∀ rs2 : RegIdx, encode (formR rd rs1 rs2) = formatR op rd rs1 rs2 ∧
      DivideCases (formR rd rs1 rs2) (s.reg rs2) s (Post rd (s.reg rs1) (s.reg rs2) s)) ∧
    (∀ imm15 : BitVec 15, encode (formI rd rs1 imm15) = formatI op rd rs1 imm15 ∧
      DivideCases (formI rd rs1 imm15) (imm15.signExtend 32) s (Post rd (s.reg rs1) (imm15.signExtend 32) s))

/-- An access of `n` bytes at `ea`: `Done` when its check passes; else the MemoryFault trap with value `ea`, OutOfBounds (detail 0)
before Misaligned (detail 1) (spec/20_memory.md R53, R54). A one-byte access and the target of JALA are never misaligned. -/
def Sys2Proof.Machine.AccessCases (i : Instr) (s : State) (ea : Word) (n : Nat) (Done : State → Prop) : Prop :=
  (AccessOk s ea n → ∃ t, exec i s = .next t ∧ Done t) ∧
  (s.cfg.memCapacity < ea.toNat + n →
    ∃ t, exec i s = .next t ∧ TrapTaken ⟨.memoryFault, 0#8, ea⟩ 0x00000002#32 s t) ∧
  (ea.toNat + n ≤ s.cfg.memCapacity → ea.toNat % n ≠ 0 →
    ∃ t, exec i s = .next t ∧ TrapTaken ⟨.memoryFault, 1#8, ea⟩ 0x00000102#32 s t)

/-- A load or store in its three address forms: each with its opcode, its effective address (spec/41_memory_ops.md R130) and what its
access does (R131). -/
def Sys2Proof.Machine.AddressForms (op opAbs : BitVec 6) (n : Nat) (formR : RegIdx → RegIdx → RegIdx → Instr)
    (formI : RegIdx → RegIdx → BitVec 15 → Instr) (formU : RegIdx → BitVec 21 → Instr)
    (Done : RegIdx → Word → State → State → Prop) (s : State) : Prop :=
  ∀ rd : RegIdx,
    (∀ rs1 rs2 : RegIdx, encode (formR rd rs1 rs2) = formatR op rd rs1 rs2 ∧
      AccessCases (formR rd rs1 rs2) s (s.reg rs1 + s.reg rs2) n (Done rd (s.reg rs1 + s.reg rs2) s)) ∧
    (∀ (rs1 : RegIdx) (imm15 : BitVec 15), encode (formI rd rs1 imm15) = formatI op rd rs1 imm15 ∧
      AccessCases (formI rd rs1 imm15) s (s.reg rs1 + imm15.signExtend 32) n
        (Done rd (s.reg rs1 + imm15.signExtend 32) s)) ∧
    (∀ imm21 : BitVec 21, encode (formU rd imm21) = formatU opAbs rd imm21 ∧
      AccessCases (formU rd imm21) s (imm21.setWidth 32) n (Done rd (imm21.setWidth 32) s))

/-- A completed load of what `value` gives for the memory and the address. -/
def Sys2Proof.Machine.LoadDone (value : Memory → Nat → Word) (rd : RegIdx) (ea : Word) (s t : State) : Prop :=
  MoveDone rd (value s.mem ea.toNat) (s.pc + 4#32) s t

/-- A jump to `target` that links pc + 4 in `rd`: the jump, or the MemoryFault trap of a bad target with no link written. -/
def Sys2Proof.Machine.LinkCases (i : Instr) (rd : RegIdx) (target : Word) (s : State) : Prop :=
  AccessCases i s target 4 (MoveDone rd (s.pc + 4#32) target s)

/-- In user mode the instruction raises IllegalOpcode with detail 1 and its own word, and does nothing else
(spec/43_system.md R180). -/
def Sys2Proof.Machine.TrapsInUserMode (i : Instr) (s : State) : Prop :=
  s.status.priv = false → ∃ t, exec i s = .next t ∧ TrapTaken ⟨.illegalOpcode, 1#8, encode i⟩ 0x00000101#32 s t

/-! ### Encoding -/

/-- Decode after encode is the identity on every instruction. The spec marks this round trip (spec/30_encoding.md R93) as its own
inference from the formats and the decode procedure. -/
def Obligations.DecodeOfEncodeIsIdentity : Prop := ∀ i : Instr, decode (encode i) = .ok i

/-- Encode after decode is the identity on every word that decodes: no bit of a word is dropped. The spec marks it (spec/30_encoding.md
R93) as its own inference. -/
def Obligations.EncodeOfDecodeIsIdentity : Prop := ∀ (w : Word) (i : Instr), decode w = .ok i → encode i = w

/-- A word is rejected exactly when its opcode is reserved (R84) or a constrained field has another value (R85). -/
def Obligations.DecodeRejectsExactlyTheIllegalWords : Prop := ∀ w : Word, (∃ e, decode w = .error e) ↔ IllegalWord w

/-- A few words written out from the spec's encoding decode to the instructions they stand for, one of each family and format. -/
def Obligations.SampleWordsDecode : Prop :=
  decode 0x00220C00#32 = .ok (.addR 1#5 2#5 3#5) ∧ decode 0x2022FFF9#32 = .ok (.mulI 1#5 2#5 0x7FF9#15) ∧
  decode 0x3C202244#32 = .ok (.lui 1#5 0x2244#21) ∧ decode 0x58228002#32 = .ok (.sthI 1#5 2#5 2#15) ∧
  decode 0x70210000#32 = .ok (.ldwa 1#5 0x10000#21) ∧ decode 0x807FFFFE#32 = .ok (.bne 0x3FFFFE#22) ∧
  decode 0x881F8000#32 = .ok (.jalrI 0#5 31#5 0#15) ∧ decode 0xCCA08003#32 = .ok (.mfsrEpc 5#5) ∧
  decode 0xD0058003#32 = .ok (.mtsrEpc 5#5) ∧ decode 0xC8000000#32 = .ok .rti

/-! ### Registers and the arithmetic family -/

/-- Register 0 reads 0 and a write to it changes nothing; any other register reads the last value written, whatever is then written to
the others, or its reset value 0. -/
def Obligations.RegisterFileReadsLastWrite : Prop :=
  ∀ (s : State) (i : RegIdx) (v : Word),
    s.reg 0#5 = 0x00000000#32 ∧ s.setReg 0#5 v = s ∧ (i ≠ 0#5 → (s.setReg i v).reg i = v) ∧
    (∀ j : RegIdx, j ≠ i → (s.setReg i v).reg j = s.reg j) ∧ (∀ cfg : Config, (State.initial cfg).reg i = 0x00000000#32)

/-- ADD, both forms: the sum modulo 2^32, C the carry out, V the signed overflow, and nothing else. The spec marks the carry "from general
knowledge, not in source" (spec/40_arithmetic.md R102, notes/assumptions/7.md). -/
def Obligations.AddResult : Prop :=
  BothForms 0x00#6 .addR .addI fun rd a b s t =>
    ArithDone rd (a + b)
      { c := decide (2 ^ 32 ≤ a.toNat + b.toNat), z := decide (a + b = 0#32), n := (a + b).msb,
        v := !fitsSigned (a.toInt + b.toInt) } s t

/-- SUB and CMP, both forms: the difference modulo 2^32, C the borrow, V the signed overflow; CMP writes no register. -/
def Obligations.SubAndCompareResult : Prop :=
  (BothForms 0x01#6 .subR .subI fun rd a b s t => ArithDone rd (a - b) (subFlags a b) s t) ∧
  (BothFlagForms 0x0D#6 .cmpR .cmpI fun a b s t => FlagsDone (subFlags a b) s t)

/-- Each condition of Bcc reads the flags as the table of spec/42_branch.md R161 says. The spec marks the conditions' names "from general
knowledge, not in source" (notes/assumptions/7.md). -/
def Obligations.ConditionsReadTheFlags : Prop :=
  ∀ f : Flags,
    condHolds .eq f = f.z ∧ condHolds .ne f = !f.z ∧ condHolds .lo f = f.c ∧ condHolds .hs f = !f.c ∧
    condHolds .mi f = f.n ∧ condHolds .pl f = !f.n ∧ condHolds .vs f = f.v ∧ condHolds .vc f = !f.v ∧
    condHolds .hi f = (!f.c && !f.z) ∧ condHolds .ls f = (f.c || f.z) ∧
    condHolds .ge f = decide (f.n = f.v) ∧ condHolds .lt f = decide (f.n ≠ f.v) ∧
    condHolds .gt f = (!f.z && decide (f.n = f.v)) ∧ condHolds .le f = (f.z || decide (f.n ≠ f.v)) ∧
    condHolds .al f = true

/-- After a CMP of a and b, each condition of Bcc means what the table of spec/42_branch.md R161 says of a and b. The spec marks the
conditions' names "from general knowledge, not in source" (notes/assumptions/7.md). -/
def Obligations.ConditionsAfterCompare : Prop :=
  BothFlagForms 0x0D#6 .cmpR .cmpI fun a b _ t =>
    (condHolds .eq t.flags = true ↔ a = b) ∧ (condHolds .ne t.flags = true ↔ a ≠ b) ∧
    (condHolds .lo t.flags = true ↔ a.toNat < b.toNat) ∧ (condHolds .hs t.flags = true ↔ b.toNat ≤ a.toNat) ∧
    (condHolds .mi t.flags = true ↔ (a - b).msb = true) ∧ (condHolds .pl t.flags = true ↔ (a - b).msb = false) ∧
    (condHolds .vs t.flags = true ↔ fitsSigned (a.toInt - b.toInt) = false) ∧
    (condHolds .vc t.flags = true ↔ fitsSigned (a.toInt - b.toInt) = true) ∧
    (condHolds .hi t.flags = true ↔ b.toNat < a.toNat) ∧ (condHolds .ls t.flags = true ↔ a.toNat ≤ b.toNat) ∧
    (condHolds .ge t.flags = true ↔ b.toInt ≤ a.toInt) ∧ (condHolds .lt t.flags = true ↔ a.toInt < b.toInt) ∧
    (condHolds .gt t.flags = true ↔ b.toInt < a.toInt) ∧ (condHolds .le t.flags = true ↔ a.toInt ≤ b.toInt) ∧
    condHolds .al t.flags = true

/-- AND, OR, XOR and TST, both forms: the bitwise result, Z and N of it, C and V cleared; TST writes no register. -/
def Obligations.BitwiseResults : Prop :=
  (BothForms 0x02#6 .andR .andI fun rd a b s t => ArithDone rd (a &&& b) (logicFlags (a &&& b)) s t) ∧
  (BothForms 0x03#6 .orR .orI fun rd a b s t => ArithDone rd (a ||| b) (logicFlags (a ||| b)) s t) ∧
  (BothForms 0x04#6 .xorR .xorI fun rd a b s t => ArithDone rd (a ^^^ b) (logicFlags (a ^^^ b)) s t) ∧
  (BothFlagForms 0x0E#6 .tstR .tstI fun a b s t => FlagsDone (logicFlags (a &&& b)) s t)

/-- SHL, SHR and SAR, both forms: the shift by `b[4:0]`, C the last bit shifted out and 0 for amount 0, V = 0. -/
def Obligations.ShiftResults : Prop :=
  (BothForms 0x05#6 .shlR .shlI fun rd a b s t =>
    ArithDone rd (a <<< amount b)
      { logicFlags (a <<< amount b) with c := decide (amount b ≠ 0) && a.getLsbD (32 - amount b) } s t) ∧
  (BothForms 0x06#6 .shrR .shrI fun rd a b s t =>
    ArithDone rd (a >>> amount b)
      { logicFlags (a >>> amount b) with c := decide (amount b ≠ 0) && a.getLsbD (amount b - 1) } s t) ∧
  (BothForms 0x07#6 .sarR .sarI fun rd a b s t =>
    ArithDone rd (a.sshiftRight (amount b))
      { logicFlags (a.sshiftRight (amount b)) with c := decide (amount b ≠ 0) && a.getLsbD (amount b - 1) } s t)

/-- MUL, both forms: the low word of the product, C and V that the unsigned and the signed product do not fit. -/
def Obligations.MulResult : Prop :=
  BothForms 0x08#6 .mulR .mulI fun rd a b s t =>
    ArithDone rd (a * b)
      { c := decide (2 ^ 32 ≤ a.toNat * b.toNat), z := decide (a * b = 0#32), n := (a * b).msb,
        v := !fitsSigned (a.toInt * b.toInt) } s t

/-- DIV, DIVU, REM and REMU, both forms: the quotient truncated toward zero and its remainder, signed and unsigned; C = 0; V = 1 only for
DIV of 0x80000000 by -1; a divisor 0 traps with nothing written. -/
def Obligations.DivisionResults : Prop :=
  (BothDivideForms 0x09#6 .divR .divI fun rd a b s t =>
    ArithDone rd (a.sdiv b)
      { logicFlags (a.sdiv b) with v := decide (a = 0x80000000#32 ∧ b = 0xFFFFFFFF#32) } s t) ∧
  (BothDivideForms 0x0A#6 .divuR .divuI fun rd a b s t => ArithDone rd (a / b) (logicFlags (a / b)) s t) ∧
  (BothDivideForms 0x0B#6 .remR .remI fun rd a b s t => ArithDone rd (a.srem b) (logicFlags (a.srem b)) s t) ∧
  (BothDivideForms 0x0C#6 .remuR .remuI fun rd a b s t => ArithDone rd (a % b) (logicFlags (a % b)) s t)

/-- The spec's inference of spec/40_arithmetic.md R118: for a divisor other than 0 and no overflow, the results of DIV and REM satisfy
`signed(a) = signed(b) * q + rem` with `|rem| < |b|` and rem 0 or of the sign of a; those of DIVU and REMU satisfy `a = b * q + rem` with rem below b. -/
def Obligations.DivisionLaw : Prop :=
  ∀ (q r rs1 rs2 : RegIdx) (s t u t' u' : State), q ≠ 0#5 → r ≠ 0#5 → s.reg rs2 ≠ 0x00000000#32 →
    exec (.divR q rs1 rs2) s = .next t → exec (.remR r rs1 rs2) s = .next u →
    exec (.divuR q rs1 rs2) s = .next t' → exec (.remuR r rs1 rs2) s = .next u' →
    (¬(s.reg rs1 = 0x80000000#32 ∧ s.reg rs2 = 0xFFFFFFFF#32) →
      (s.reg rs1).toInt = (s.reg rs2).toInt * (t.reg q).toInt + (u.reg r).toInt) ∧
    ((u.reg r).toInt.natAbs < (s.reg rs2).toInt.natAbs) ∧
    (0 ≤ (s.reg rs1).toInt → 0 ≤ (u.reg r).toInt) ∧ ((s.reg rs1).toInt ≤ 0 → (u.reg r).toInt ≤ 0) ∧
    (s.reg rs1).toNat = (s.reg rs2).toNat * (t'.reg q).toNat + (u'.reg r).toNat ∧
    (u'.reg r).toNat < (s.reg rs2).toNat

/-- LUI: `x[rd]` gets imm21 in bits 31:11 and 0 in bits 10:0; flags unchanged. -/
def Obligations.LuiResult : Prop :=
  ∀ (rd : RegIdx) (imm21 : BitVec 21) (s : State),
    encode (.lui rd imm21) = formatU 0x0F#6 rd imm21 ∧
    ∃ t, exec (.lui rd imm21) s = .next t ∧ MoveDone rd (BitVec.ofNat 32 (imm21.toNat * 2048)) (s.pc + 4#32) s t

/-! ### The memory family -/

/-- LDB, LDBU, LDH, LDHU and their absolute forms load one or two bytes, the lowest address least significant, sign- or
zero-extended, or raise MemoryFault. -/
def Obligations.NarrowLoadResults : Prop :=
  ∀ s : State,
    AddressForms 0x10#6 0x18#6 1 .ldbR .ldbI .ldba (LoadDone fun m a => (Memory.read m a).signExtend 32) s ∧
    AddressForms 0x11#6 0x19#6 1 .ldbuR .ldbuI .ldbua (LoadDone fun m a => (Memory.read m a).setWidth 32) s ∧
    AddressForms 0x12#6 0x1A#6 2 .ldhR .ldhI .ldha
      (LoadDone fun m a => (Memory.read m (a + 1) ++ Memory.read m a).signExtend 32) s ∧
    AddressForms 0x13#6 0x1B#6 2 .ldhuR .ldhuI .ldhua
      (LoadDone fun m a => (Memory.read m (a + 1) ++ Memory.read m a).setWidth 32) s

/-- LDW and LDWA load four bytes, the lowest address least significant, or raise MemoryFault. -/
def Obligations.WordLoadResults : Prop :=
  ∀ s : State,
    AddressForms 0x14#6 0x1C#6 4 .ldwR .ldwI .ldwa
      (LoadDone fun m a => Memory.read m (a + 3) ++ Memory.read m (a + 2) ++ Memory.read m (a + 1) ++ Memory.read m a) s

/-- STB, STH, STW and their absolute forms write the low bytes of `x[rd]` at the effective address, little-endian, and change nothing else
but pc, or raise MemoryFault and write no byte. In a memory in canonical form. -/
def Obligations.StoreResults : Prop :=
  ∀ s : State, Memory.wf s.cfg.memCapacity s.mem = true →
    AddressForms 0x15#6 0x1D#6 1 .stbR .stbI .stba (fun rd ea s => StoreDone ea 1 (s.reg rd) s) s ∧
    AddressForms 0x16#6 0x1E#6 2 .sthR .sthI .stha (fun rd ea s => StoreDone ea 2 (s.reg rd) s) s ∧
    AddressForms 0x17#6 0x1F#6 4 .stwR .stwI .stwa (fun rd ea s => StoreDone ea 4 (s.reg rd) s) s

/-- The spec's inference of spec/41_memory_ops.md R148: a store followed by a load of the same width from the same address returns the
stored value modulo 2^(8n), zero- or sign-extended. -/
def Obligations.StoreThenLoadReturnsValue : Prop :=
  ∀ (rs rd rs1 : RegIdx) (imm15 : BitVec 15) (s t u : State), Memory.wf s.cfg.memCapacity s.mem = true → rd ≠ 0#5 →
    (AccessOk s (s.reg rs1 + imm15.signExtend 32) 4 → exec (.stwI rs rs1 imm15) s = .next t →
      exec (.ldwI rd rs1 imm15) t = .next u → u.reg rd = s.reg rs) ∧
    (AccessOk s (s.reg rs1 + imm15.signExtend 32) 2 → exec (.sthI rs rs1 imm15) s = .next t →
      (exec (.ldhuI rd rs1 imm15) t = .next u → u.reg rd = BitVec.ofNat 32 ((s.reg rs).toNat % 2 ^ 16)) ∧
      (exec (.ldhI rd rs1 imm15) t = .next u → u.reg rd = ((s.reg rs).setWidth 16).signExtend 32)) ∧
    (AccessOk s (s.reg rs1 + imm15.signExtend 32) 1 → exec (.stbI rs rs1 imm15) s = .next t →
      (exec (.ldbuI rd rs1 imm15) t = .next u → u.reg rd = BitVec.ofNat 32 ((s.reg rs).toNat % 2 ^ 8)) ∧
      (exec (.ldbI rd rs1 imm15) t = .next u → u.reg rd = ((s.reg rs).setWidth 8).signExtend 32))

/-! ### The branch family -/

/-- Every conditional branch: not taken it goes to pc + 4 with no target check; taken it goes to a good target, or raises MemoryFault for a bad
one; nothing but pc changes. -/
def Obligations.ConditionalBranchResult : Prop :=
  ∀ (i : Instr) (c : Cond) (imm22 : BitVec 22) (s : State), bccForm i = some (c, imm22) →
    encode i = formatB 0x20#6 (condNumber c) imm22 ∧
    (condHolds c s.flags = false → exec i s = .next { s with pc := s.pc + 4#32 }) ∧
    (condHolds c s.flags = true →
      AccessCases i s (s.pc + imm22.signExtend 32 * 4#32) 4
        fun t => t = { s with pc := s.pc + imm22.signExtend 32 * 4#32 })

/-- JAL, JALR (both forms) and JALA: the target, computed before the link is written; the jump with pc + 4 linked, or MemoryFault with
the target as its value and no link. -/
def Obligations.JumpAndLinkResult : Prop :=
  ∀ (rd : RegIdx) (s : State),
    (∀ imm21 : BitVec 21, encode (.jal rd imm21) = formatU 0x21#6 rd imm21 ∧
      LinkCases (.jal rd imm21) rd (s.pc + imm21.signExtend 32 * 4#32) s) ∧
    (∀ rs1 rs2 : RegIdx, encode (.jalrR rd rs1 rs2) = formatR 0x22#6 rd rs1 rs2 ∧
      LinkCases (.jalrR rd rs1 rs2) rd (s.reg rs1 + s.reg rs2) s) ∧
    (∀ (rs1 : RegIdx) (imm15 : BitVec 15), encode (.jalrI rd rs1 imm15) = formatI 0x22#6 rd rs1 imm15 ∧
      LinkCases (.jalrI rd rs1 imm15) rd (s.reg rs1 + imm15.signExtend 32) s) ∧
    (∀ imm21 : BitVec 21, encode (.jala rd imm21) = formatU 0x23#6 rd imm21 ∧
      LinkCases (.jala rd imm21) rd (imm21.setWidth 32 * 4#32) s)

/-! ### The system family -/

/-- HALT in supervisor mode sets `halted` with reason Halt and leaves pc at the HALT, in user mode it traps; NOP advances pc and does nothing
else, at both levels. -/
def Obligations.HaltAndNopResult : Prop :=
  encode .halt = 0xC0000000#32 ∧ encode .nop = 0xD4000000#32 ∧
  ∀ s : State,
    (s.status.priv = true → exec .halt s = .next { s with halted := true, haltReason := some .halt }) ∧
    TrapsInUserMode .halt s ∧
    exec .nop s = .next { s with pc := s.pc + 4#32 }

/-- SWI takes the SoftwareInterrupt trap with `sext_15(imm15)` as its value, at both levels and whatever IE is; in a handler with IE = 0 that is
the double fault. -/
def Obligations.SoftwareInterruptTraps : Prop :=
  ∀ (imm15 : BitVec 15) (s : State),
    encode (.swi imm15) = formatI 0x31#6 0#5 0#5 imm15 ∧
    ∃ t, exec (.swi imm15) s = .next t ∧
      TrapTaken ⟨.softwareInterrupt, 0#8, imm15.signExtend 32⟩ 0x00000004#32 s t

/-- RTI in supervisor mode restores pc, the flags, IE and PRIV, clears INH and the record, and changes nothing else; with a bad EPC it raises
MemoryFault and restores nothing; in user mode it traps. -/
def Obligations.RtiRestores : Prop :=
  encode .rti = 0xC8000000#32 ∧
  ∀ s : State, TrapsInUserMode .rti s ∧ (s.status.priv = true → AccessCases .rti s s.epc 4 (ReturnDone s))

/-- Trap entry and then RTI give back pc, the flags, IE, PRIV, the registers and memory of the interrupted context. -/
def Obligations.TrapEntryThenRtiResumes : Prop :=
  ∀ (tr : Trap) (s t u : State), (∃ h, VectorTable.handler s.cfg.vectors tr.cause = some h) → AccessOk s s.pc 4 →
    (vectorTrap tr s.pc s).1 = t → exec .rti t = .next u →
    u.pc = s.pc ∧ u.flags = s.flags ∧ u.status.ie = s.status.ie ∧ u.status.priv = s.status.priv ∧
    u.status.inh = false ∧ SameRegs s u ∧ SameMemory s u

/-- A privileged instruction in user mode raises IllegalOpcode with detail 1 and its own word, before any other check, and does nothing
else; an instruction that is not privileged does the same at both levels: the same control effect, and the same state but for PRIV. -/
def Obligations.PrivilegeCheckIsExact : Prop :=
  ∀ (i : Instr) (s : State),
    (privileged i = true → TrapsInUserMode i s) ∧
    (privileged i = false → ∀ level : Bool,
      (execute i (s.atLevel level)).2 = (execute i s).2 ∧
      ((execute i (s.atLevel level)).1).atLevel s.status.priv = (execute i s).1)

/-- MFSR of the CSR with number `k` is encoded so, traps in user mode, and in supervisor mode writes `v` to `x[rd]` and nothing else but pc. -/
def Sys2Proof.Machine.MfsrCase (i : Instr) (k : BitVec 15) (rd : RegIdx) (v : Word) (s : State) : Prop :=
  encode i = formatI 0x33#6 rd 0#5 k ∧ TrapsInUserMode i s ∧
  (s.status.priv = true → ∃ t, exec i s = .next t ∧ MoveDone rd v (s.pc + 4#32) s t)

/-- MFSR reads each CSR bit by bit as the spec lays it out; all but FLAGS need supervisor mode. -/
def Obligations.MfsrReads : Prop :=
  ∀ (rd : RegIdx) (s : State),
    MfsrCase (.mfsrStatus rd) 0#15 rd
      (BitVec.ofNat 32 (s.status.ie.toNat + 2 * s.status.priv.toNat + 4 * s.status.pie.toNat
        + 8 * s.status.ppriv.toNat + 16 * s.status.inh.toNat)) s ∧
    MfsrCase (.mfsrCause rd) 1#15 rd s.cause s ∧
    MfsrCase (.mfsrEaddr rd) 2#15 rd s.eaddr s ∧
    MfsrCase (.mfsrEpc rd) 3#15 rd s.epc s ∧
    MfsrCase (.mfsrEflags rd) 4#15 rd (BitVec.ofNat 32 s.eflags.toNat) s ∧
    MfsrCase (.mfsrIpend rd) 6#15 rd (BitVec.ofNat 32 s.irq.toNat) s ∧
    encode (.mfsrFlags rd) = formatI 0x33#6 rd 0#5 5#15 ∧
    (∃ t, exec (.mfsrFlags rd) s = .next t ∧
      MoveDone rd (BitVec.ofNat 32 (s.flags.c.toNat + 2 * s.flags.z.toNat + 4 * s.flags.n.toNat + 8 * s.flags.v.toNat))
        (s.pc + 4#32) s t)

/-- MTSR of the CSR with number `k` is encoded so, traps in user mode, and in supervisor mode answers exactly `t`. -/
def Sys2Proof.Machine.MtsrCase (i : Instr) (k : BitVec 15) (rs1 : RegIdx) (s t : State) : Prop :=
  encode i = formatI 0x34#6 0#5 rs1 k ∧ TrapsInUserMode i s ∧ (s.status.priv = true → exec i s = .next t)

/-- MTSR writes the named CSR and pc and nothing else: STATUS bits 3:0 with INH kept, EFLAGS and FLAGS bits 3:0, the rest all 32 bits; all but
FLAGS need supervisor mode. -/
def Obligations.MtsrWrites : Prop :=
  ∀ (rs1 : RegIdx) (s : State),
    MtsrCase (.mtsrStatus rs1) 0#15 rs1 s { s with
      pc := s.pc + 4#32
      status := { ie := (s.reg rs1).toNat.testBit 0, priv := (s.reg rs1).toNat.testBit 1,
                  pie := (s.reg rs1).toNat.testBit 2, ppriv := (s.reg rs1).toNat.testBit 3, inh := s.status.inh } } ∧
    MtsrCase (.mtsrCause rs1) 1#15 rs1 s { s with pc := s.pc + 4#32, cause := s.reg rs1 } ∧
    MtsrCase (.mtsrEaddr rs1) 2#15 rs1 s { s with pc := s.pc + 4#32, eaddr := s.reg rs1 } ∧
    MtsrCase (.mtsrEpc rs1) 3#15 rs1 s { s with pc := s.pc + 4#32, epc := s.reg rs1 } ∧
    MtsrCase (.mtsrEflags rs1) 4#15 rs1 s { s with
      pc := s.pc + 4#32
      eflags := BitVec.ofNat 4 ((s.reg rs1).toNat % 16) } ∧
    encode (.mtsrFlags rs1) = formatI 0x34#6 0#5 rs1 5#15 ∧
    exec (.mtsrFlags rs1) s = .next { s with
      pc := s.pc + 4#32
      flags := { c := (s.reg rs1).toNat.testBit 0, z := (s.reg rs1).toNat.testBit 1,
                 n := (s.reg rs1).toNat.testBit 2, v := (s.reg rs1).toNat.testBit 3 } }

/-! ### Frames over all instructions -/

/-- No instruction changes a general register other than its destination (spec/10_state.md R23), traps included. -/
def Obligations.RegisterFrame : Prop :=
  ∀ (i : Instr) (s t : State) (r : RegIdx), exec i s = .next t → destReg i ≠ some r → t.reg r = s.reg r

/-- No instruction but those of spec/10_state.md R27 changes the flags, traps included. -/
def Obligations.FlagFrame : Prop :=
  ∀ (i : Instr) (s t : State), exec i s = .next t → writesFlags i = false → t.flags = s.flags

/-- No instruction changes a byte of memory other than those a store writes at its effective address, traps included. -/
def Obligations.MemoryFrame : Prop :=
  ∀ (i : Instr) (s t : State) (a : Nat), exec i s = .next t →
    (∀ ea n rd, storeAccess i s = some (ea, n, rd) → a < ea.toNat ∨ ea.toNat + n ≤ a) →
    Memory.read t.mem a = Memory.read s.mem a

/-- An instruction that does not trap and is not HALT, RTI or an MTSR of a CSR other than FLAGS changes no control and status register, no
latch and not the halted state. -/
def Obligations.ControlFrame : Prop :=
  ∀ (i : Instr) (s t : State), exec i s = .next t → (∀ tr, (execute i s).2 ≠ .trap tr) → writesControl i = false →
    SameControl s t

/-- An instruction that raises a trap has written nothing itself: what the step then writes is trap entry's or the halt's. -/
def Obligations.TrappingInstructionWritesNothing : Prop :=
  ∀ (i : Instr) (s : State) (tr : Trap), (execute i s).2 = .trap tr →
    (execute i s).1 = s ∧
    ∃ t, exec i s = .next t ∧
      TrapTaken tr (BitVec.ofNat 32 (256 * tr.detail.toNat + (Cause.code tr.cause).toNat)) s t

/-- Trap entry: with a handler it saves pc, flags, IE and PRIV, writes the record, enters supervisor mode with IE = 0 and INH = 1 at the handler,
and clears the latch for the external interrupt alone; without a handler it halts as unhandled and changes nothing else. -/
def Obligations.TrapEntrySavesTheContext : Prop :=
  ∀ (tr : Trap) (epc : Word) (s : State),
    (VectorTable.handler s.cfg.vectors tr.cause = none →
      vectorTrap tr epc s = ({ s with halted := true, haltReason := some (.unhandled tr) }, .halted (.unhandled tr))) ∧
    (∀ h, VectorTable.handler s.cfg.vectors tr.cause = some h →
      HandlerEntered (BitVec.ofNat 32 (256 * tr.detail.toNat + (Cause.code tr.cause).toNat)) tr.value epc h s
        (vectorTrap tr epc s).1 ∧
      (vectorTrap tr epc s).1.irq = (if tr.cause = .externalInterrupt then false else s.irq) ∧
      (vectorTrap tr epc s).2 = (if tr.cause = .externalInterrupt then .interrupted else .trapped tr))

/-! ### The step -/

/-- When the four bytes at pc decode to an instruction and nothing settles the boundary before it, the step is that instruction's
`exec` at that state. -/
def Obligations.StepRunsDecodedInstruction : Prop :=
  ∀ (s : State) (i : Instr), Runs s → AccessOk s s.pc 4 →
    decodeBytes [Memory.read s.mem s.pc.toNat, Memory.read s.mem (s.pc.toNat + 1), Memory.read s.mem (s.pc.toNat + 2),
      Memory.read s.mem (s.pc.toNat + 3)] = .ok (i, []) →
    step s = exec i s

/-- An instruction whose bytes the host loads at pc runs in the next step. -/
def Obligations.LoadedInstructionRuns : Prop :=
  ∀ (s t : State) (i : Instr), Memory.wf s.cfg.memCapacity s.mem = true → Runs s → AccessOk s s.pc 4 →
    loadImage (encodeBytes i) s.pc s = some t → step t = exec i t

/-- A fetch whose check fails raises MemoryFault with pc as its value. -/
def Obligations.FetchFaultTraps : Prop :=
  ∀ s : State, Runs s →
    (s.cfg.memCapacity < s.pc.toNat + 4 →
      ∃ t, step s = .next t ∧ TrapTaken ⟨.memoryFault, 0#8, s.pc⟩ 0x00000002#32 s t) ∧
    (s.pc.toNat + 4 ≤ s.cfg.memCapacity → s.pc.toNat % 4 ≠ 0 →
      ∃ t, step s = .next t ∧ TrapTaken ⟨.memoryFault, 1#8, s.pc⟩ 0x00000102#32 s t)

/-- A word at pc with a reserved opcode, or with another value in a constrained field, does not decode: the step raises IllegalOpcode with detail 0
and that word; it is never a no-op. -/
def Obligations.IllegalWordTraps : Prop :=
  ∀ (s : State) (w : Word), Runs s → AccessOk s s.pc 4 → IllegalWord w →
    Memory.read s.mem (s.pc.toNat + 3) ++ Memory.read s.mem (s.pc.toNat + 2) ++ Memory.read s.mem (s.pc.toNat + 1)
      ++ Memory.read s.mem s.pc.toNat = w →
    (∃ e, decode w = .error e) ∧ ∃ t, step s = .next t ∧ TrapTaken ⟨.illegalOpcode, 0#8, w⟩ 0x00000001#32 s t

/-- A pending and enabled external interrupt takes the whole step, before the fetch: trap entry with EPC = pc and the latch cleared, or, without
a handler, the halt as unhandled with the latch kept. -/
def Obligations.ExternalInterruptIsVectored : Prop :=
  ∀ s : State, s.halted = false → s.haltReq = false → s.irq = true → s.status.ie = true →
    (∀ h, s.cfg.vectors.externalInterrupt = some h →
      ∃ t, step s = .next t ∧ HandlerEntered 0x00000005#32 0#32 s.pc h s t ∧ t.irq = false) ∧
    (s.cfg.vectors.externalInterrupt = none →
      step s = .next { s with halted := true, haltReason := some (.unhandled ⟨.externalInterrupt, 0#8, 0#32⟩) })

/-- `request_halt` sets the request and nothing else; at the next step a running core clears it and halts with reason ExternalHalt, before any
interrupt or fetch; a pending interrupt stays pending. -/
def Obligations.HaltRequestWins : Prop :=
  ∀ s : State,
    requestHalt s = { s with haltReq := true } ∧
    (s.halted = false → s.haltReq = true →
      step s = .next { s with haltReq := false, halted := true, haltReason := some .externalHalt })

/-- A step of a halted core answers AlreadyHalted and its own state, unchanged in every field; `run` takes no step; whatever the host then
writes, no step runs again. -/
def Obligations.HaltedCoreIsUnchanged : Prop :=
  ∀ (s : State) (n : Nat), s.halted = true →
    step s = .next s ∧ hostStep s = (s, .alreadyHalted) ∧ isHalted s = true ∧
    run n s = { reason := .halted s.haltReason, last := none, steps := 0, context := s } ∧
    (∀ t, requestHalt s = t ∨ (∃ c, injectInterrupt c s = some t) ∨ (∃ bytes origin, loadImage bytes origin s = some t) →
      step t = .next t)

/-- A synchronous trap with INH = 1 and IE = 0 is a double fault: the core halts with the second trap's triple and nothing else changes, be
it raised by the fetch, the decoder or the instruction, and whatever the vector table holds; a pending interrupt is not vectored. With
IE = 1 the trap nests: it is vectored like any other. -/
def Obligations.DoubleFaultHalts : Prop :=
  ∀ s : State, Runs s → s.status.inh = true →
    (s.status.ie = false →
      (∀ k, s.check s.pc 4 = some k →
        step s = .next { s with halted := true, haltReason := some (.doubleFault ⟨.memoryFault, k.detail, s.pc⟩) }) ∧
      (∀ e, s.check s.pc 4 = none → decode s.fetchWord = .error e →
        step s = .next { s with halted := true, haltReason := some (.doubleFault ⟨.illegalOpcode, 0#8, s.fetchWord⟩) }) ∧
      (∀ i tr, s.check s.pc 4 = none → decode s.fetchWord = .ok i → (execute i s).2 = .trap tr →
        step s = .next { s with halted := true, haltReason := some (.doubleFault tr) }) ∧
      (hostStep s).2 ≠ .interrupted) ∧
    (s.status.ie = true → ∀ i tr h, s.check s.pc 4 = none → decode s.fetchWord = .ok i → (execute i s).2 = .trap tr →
      VectorTable.handler s.cfg.vectors tr.cause = some h →
      ∃ t, step s = .next t ∧
        HandlerEntered (BitVec.ofNat 32 (256 * tr.detail.toNat + (Cause.code tr.cause).toNat)) tr.value s.pc h s t)

/-- Every step answers a next state, the one `hostStep` computes with its StepResult: no state makes the core fault or refuse. That
nothing faults or refuses is the model's reading of spec/93_implementation_defined.md (DEDUCED, notes/assumptions/9.md); that the StepResult
is given by `hostStep` beside `step` is the model's choice (DESIGN CHOICE, notes/assumptions/10.md). -/
def Obligations.EveryStepAnswersNext : Prop := ∀ s : State, step s = .next (hostStep s).1

/-- Each StepResult says what happened in the step: `Executed`, `Trapped`, `Interrupted`, `Halted` and `AlreadyHalted`. That `hostStep` gives
it is the model's choice (DESIGN CHOICE, notes/assumptions/10.md). -/
def Obligations.StepResultTellsTheOutcome : Prop :=
  ∀ s : State,
    match (hostStep s).2 with
    | .alreadyHalted => s.halted = true ∧ (hostStep s).1 = s
    | .halted r => s.halted = false ∧ (hostStep s).1.halted = true ∧ (hostStep s).1.haltReason = some r
    | .interrupted => s.irq = true ∧ s.status.ie = true ∧ (hostStep s).1.irq = false ∧
        s.cfg.vectors.externalInterrupt = some (hostStep s).1.pc ∧
        HandlerEntered 0x00000005#32 0#32 s.pc (hostStep s).1.pc s (hostStep s).1
    | .trapped tr => VectorTable.handler s.cfg.vectors tr.cause = some (hostStep s).1.pc ∧
        HandlerEntered (BitVec.ofNat 32 (256 * tr.detail.toNat + (Cause.code tr.cause).toNat)) tr.value s.pc
          (hostStep s).1.pc s (hostStep s).1 ∧ (hostStep s).1.irq = s.irq
    | .executed => (hostStep s).1.halted = false ∧ ∃ i, boundary s = .run i ∧ ∀ tr, (execute i s).2 ≠ .trap tr

/-- In user mode a step changes STATUS, CAUSE, EADDR, EPC and EFLAGS only by trap entry, which saves the user's pc and sets supervisor mode:
"User code enters the supervisor only through a trap". -/
def Obligations.UserReachesControlOnlyByTrap : Prop :=
  ∀ s t : State, s.status.priv = false → step s = .next t →
    (t.status = s.status ∧ t.cause = s.cause ∧ t.eaddr = s.eaddr ∧ t.epc = s.epc ∧ t.eflags = s.eflags) ∨
    (∃ c h, VectorTable.handler s.cfg.vectors c = some h ∧ t.pc = h ∧ t.epc = s.pc ∧
      t.status = { ie := false, priv := true, pie := s.status.ie, ppriv := false, inh := true })

/-- INH is set only by trap entry and cleared only by RTI, over all steps. -/
def Obligations.InHandlerFromTrapEntryUntilRti : Prop :=
  ∀ s t : State, step s = .next t →
    (s.status.inh = true → t.status.inh = false → boundary s = .run .rti) ∧
    (s.status.inh = false → t.status.inh = true →
      ∃ c h, VectorTable.handler s.cfg.vectors c = some h ∧ t.pc = h ∧ t.epc = s.pc)

/-- PRIV changes only by trap entry (to supervisor), by RTI (to PPRIV) and by MTSR STATUS from the supervisor (to user); it is supervisor
after reset. -/
def Obligations.PrivilegeChangesOnlyByItsTransitions : Prop :=
  (∀ cfg : Config, (State.initial cfg).status.priv = true) ∧
  ∀ s t : State, step s = .next t → t.status.priv ≠ s.status.priv →
    (t.status = { ie := false, priv := true, pie := s.status.ie, ppriv := s.status.priv, inh := true } ∧
      ∃ c h, VectorTable.handler s.cfg.vectors c = some h ∧ t.pc = h ∧ t.epc = s.pc) ∨
    (boundary s = .run .rti ∧ s.status.priv = true ∧ t.status.priv = s.status.ppriv) ∨
    (∃ rs1, boundary s = .run (.mtsrStatus rs1) ∧ s.status.priv = true ∧ (s.reg rs1).toNat.testBit 1 = false)

/-- In user mode nothing a step does to what a user program can see depends on CAUSE, EADDR, EPC, EFLAGS, PIE and PPRIV. -/
def Obligations.UserStepReadsNoSupervisorRecord : Prop :=
  ∀ (s t u : State) (pie ppriv : Bool) (cause eaddr epc : Word) (eflags : BitVec 4), s.status.priv = false →
    step s = .next t → step (s.withRecord pie ppriv cause eaddr epc eflags) = .next u → SameUserView t u

/-- The pending latch: `inject_interrupt` of the external interrupt sets it and nothing else, any other cause is refused, a second injection has
no further effect; no step sets it, and only the vectoring of the external interrupt clears it; IPEND reads it; it is 0 after reset. -/
def Obligations.IrqLatchIsSetByInjectionAndClearedByVectoring : Prop :=
  (∀ cfg : Config, (State.initial cfg).irq = false) ∧
  ∀ s : State,
    injectInterrupt .externalInterrupt s = some { s with irq := true } ∧
    (∀ c, c ≠ .externalInterrupt → injectInterrupt c s = none) ∧
    (∀ t, injectInterrupt .externalInterrupt s = some t → injectInterrupt .externalInterrupt t = some t) ∧
    (s.csr .ipend).toNat = s.irq.toNat ∧ (requestHalt s).irq = s.irq ∧
    (∀ bytes origin t, loadImage bytes origin s = some t → t.irq = s.irq) ∧
    (∀ t, step s = .next t →
      t.irq = s.irq ∨ (s.irq = true ∧ s.status.ie = true ∧ t.irq = false ∧
        ∃ h, s.cfg.vectors.externalInterrupt = some h ∧ t.pc = h ∧ t.epc = s.pc))

/-- No instruction and no step changes the construction parameters. -/
def Obligations.ParametersAreConstant : Prop :=
  ∀ s t : State, (step s = .next t ∨ ∃ i, exec i s = .next t) → t.cfg = s.cfg

/-! ### The invariant, reset and construction -/

/-- Every step keeps the invariant: memory canonical and inside its capacity, pc aligned and not past the end, a halt reason exactly when
halted. -/
def Obligations.StepKeepsInvariant : Prop := ∀ s t : State, s.Inv → step s = .next t → t.Inv

/-- The reset state satisfies the invariant. The construction parameters of the reset state are the model's choice
(notes/assumptions/1.md). -/
def Obligations.ResetSatisfiesInvariant : Prop := State.reset.Inv

/-- `new` builds a core exactly from legal parameters, in the reset state the spec states, and that state satisfies the invariant. -/
def Obligations.ConstructionChecksAndResets : Prop :=
  ∀ cfg : Config,
    ((∃ s, construct cfg = some s) ↔
      4 ≤ cfg.memCapacity ∧ cfg.memCapacity ≤ 2 ^ 32 ∧
      cfg.entryPoint.toNat % 4 = 0 ∧ cfg.entryPoint.toNat + 4 ≤ cfg.memCapacity ∧
      ∀ c h, c ≠ .doubleFault → VectorTable.handler cfg.vectors c = some h →
        h.toNat % 4 = 0 ∧ h.toNat + 4 ≤ cfg.memCapacity) ∧
    (∀ s, construct cfg = some s →
      (∀ r, s.reg r = 0#32) ∧ s.pc = cfg.entryPoint ∧ s.flags = { c := false, z := false, n := false, v := false } ∧
      s.csr .status = 0x00000002#32 ∧ s.cause = 0#32 ∧ s.eaddr = 0#32 ∧ s.epc = 0#32 ∧ s.eflags = 0#4 ∧
      s.irq = false ∧ s.haltReq = false ∧ s.halted = false ∧ s.haltReason = none ∧
      (∀ a, Memory.read s.mem a = 0x00#8) ∧ s.cfg = cfg ∧ s.Inv)

/-! ### The host's calls -/

/-- `load_image`: refused exactly when the bytes do not fit; else the bytes are at the origin and nothing else changed; an
instruction word's bytes run from its low byte up. -/
def Obligations.LoadImageCopiesBytes : Prop :=
  ∀ (bytes : List Byte) (origin : Word) (s : State), Memory.wf s.cfg.memCapacity s.mem = true →
    (loadImage bytes origin s = none ↔ s.cfg.memCapacity < origin.toNat + bytes.length) ∧
    (∀ t, loadImage bytes origin s = some t →
      (∀ k (h : k < bytes.length), Memory.read t.mem (origin.toNat + k) = bytes[k]) ∧
      (∀ a, (a < origin.toNat ∨ origin.toNat + bytes.length ≤ a) → Memory.read t.mem a = Memory.read s.mem a) ∧
      { t with mem := s.mem } = s) ∧
    (∀ i : Instr, encodeBytes i = [(encode i).extractLsb' 0 8, (encode i).extractLsb' 8 8, (encode i).extractLsb' 16 8,
      (encode i).extractLsb' 24 8])

/-- Every host call that writes keeps the invariant. -/
def Obligations.HostCallsKeepInvariant : Prop :=
  ∀ s : State, s.Inv →
    (∀ bytes origin t, loadImage bytes origin s = some t → t.Inv) ∧
    (∀ c t, injectInterrupt c s = some t → t.Inv ∧ c = .externalInterrupt ∧ t.irq = true) ∧
    (requestHalt s).Inv

/-- `read_register` and `read_memory`: the register for a number up to 31; the little-endian value, the fault to the host, or the
refusal of a width other than 1, 2 and 4. -/
def Obligations.HostReadsAreExact : Prop :=
  ∀ (s : State) (addr : Word) (i n : Nat),
    isHalted s = s.halted ∧ (readRegister s i = none ↔ 31 < i) ∧
    (∀ r : RegIdx, readRegister s r.toNat = some (s.reg r)) ∧
    (n ≠ 1 ∧ n ≠ 2 ∧ n ≠ 4 → readMemory s addr n = .refused) ∧
    (n = 1 ∨ n = 2 ∨ n = 4 →
      (s.cfg.memCapacity < addr.toNat + n → readMemory s addr n = .fault .outOfBounds addr) ∧
      (addr.toNat + n ≤ s.cfg.memCapacity → addr.toNat % n ≠ 0 → readMemory s addr n = .fault .misaligned addr) ∧
      (AccessOk s addr n → ∃ v, readMemory s addr n = .value v ∧
        ∀ k, k < 4 → v.extractLsb' (8 * k) 8 = if k < n then Memory.read s.mem (addr.toNat + k) else 0x00#8))

/-- `run`: none of its steps on a halted core or with no budget left; else one step and the run of the rest. It takes at most its budget of
steps, ends by exhaustion exactly on a core still running, with all of the budget used, else with the halt reason. -/
def Obligations.RunStopsByHaltOrBudget : Prop :=
  ∀ (n : Nat) (s : State),
    (s.halted = true → run n s = { reason := .halted s.haltReason, last := none, steps := 0, context := s }) ∧
    (s.halted = false → run 0 s = { reason := .budgetExhausted, last := none, steps := 0, context := s }) ∧
    (s.halted = false →
      (run (n + 1) s).reason = (run n (hostStep s).1).reason ∧ (run (n + 1) s).context = (run n (hostStep s).1).context ∧
      (run (n + 1) s).steps = (run n (hostStep s).1).steps + 1 ∧
      (run (n + 1) s).last = some ((run n (hostStep s).1).last.getD (hostStep s).2)) ∧
    (run n s).steps ≤ n ∧
    ((run n s).reason = .budgetExhausted ↔ (run n s).context.halted = false) ∧
    ((run n s).reason = .budgetExhausted → (run n s).steps = n) ∧
    (∀ r, (run n s).reason = .halted r → r = (run n s).context.haltReason) ∧
    ((run n s).last = none ↔ (run n s).steps = 0)

/-- The terminal context of `run` is the state that as many steps of the core reach: stopping at the halt loses nothing. -/
def Obligations.RunIsIteratedStep : Prop :=
  ∀ (n : Nat) (s : State), Host.Core.run Sys2Proof.core n s = .next (run n s).context

/-! ### The assembler -/

/-- What a source line of Bcc, JAL or JALA assembles to, executed at the address it was assembled for, goes to the target the line
names: a branch whose condition holds and either jump with its link, or MemoryFault with that target as its value when the target is bad;
a branch whose condition does not hold goes on. -/
def Obligations.AssembledTransfersReachTheirTarget : Prop :=
  ∀ (target : Int) (i : Instr) (s : State),
    (∀ c, assemble s.pc (.bcc c target) = some i →
      (condHolds c s.flags = true →
        AccessCases i s (BitVec.ofInt 32 target) 4 fun t => t = { s with pc := BitVec.ofInt 32 target }) ∧
      (condHolds c s.flags = false → exec i s = .next { s with pc := s.pc + 4#32 })) ∧
    (∀ rd, assemble s.pc (.jal rd target) = some i → LinkCases i rd (BitVec.ofInt 32 target) s) ∧
    (∀ rd, assemble s.pc (.jala rd target) = some i → LinkCases i rd (BitVec.ofInt 32 target) s)

/-- The expansion of `LI rd, imm` run from any state leaves the constant in `x[rd]` and changes no other general register. -/
def Obligations.LoadImmediateBuildsTheConstant : Prop :=
  ∀ (pc : Word) (rd : RegIdx) (imm : Int) (is : List Instr) (s : State), assemblePseudo pc (.li rd imm) = some is →
    ∃ t, execAll is s = .next t ∧ WroteReg rd (BitVec.ofInt 32 imm) s t
end

