-- ==== Sys2Proof/Laws/Alu.lean ====
section
/-! SUPPORT. For each operation of the arithmetic family, once, its result and its four flags as operations on words. -/

namespace Sys2Proof.Machine

theorem getLsbD_31_eq_msb (a : Word) : a.getLsbD 31 = a.msb := by simp [BitVec.msb_eq_getLsbD_last]

/-- A difference is 0 exactly when the operands are equal. -/
theorem sub_eq_zero_iff_eq (a b : Word) : a - b = 0#32 ↔ a = b := by
  constructor
  · intro h
    have hn := congrArg BitVec.toNat h
    simp only [BitVec.toNat_sub, BitVec.toNat_ofNat] at hn
    have := a.isLt
    have := b.isLt
    apply BitVec.eq_of_toNat_eq
    omega
  · rintro rfl; simp

theorem flagsOf_eq (r : Word) (c v : Bool) : flagsOf r c v = { logicFlags r with c := c, v := v } := by
  simp only [flagsOf, logicFlags, getLsbD_31_eq_msb]

theorem aluAdd_eq (a b : Word) :
    aluAdd a b = (a + b,
      { logicFlags (a + b) with c := decide (2 ^ 32 ≤ a.toNat + b.toNat), v := !fitsSigned (a.toInt + b.toInt) }) := by
  have h : BitVec.ofNat 32 (a.toNat + b.toNat) = a + b := by apply BitVec.eq_of_toNat_eq; simp
  simp only [aluAdd, h, flagsOf_eq, getLsbD_31_eq_msb]
  have ha := a.isLt
  have hb := b.isLt
  congr 2
  rw [Bool.eq_iff_iff]
  simp only [fitsSigned, BitVec.msb_eq_decide, BitVec.toInt_eq_toNat_cond, BitVec.toNat_add, Bool.and_eq_true,
    Bool.not_eq_true', Bool.and_eq_false_iff, decide_eq_true_eq, decide_eq_false_iff_not, decide_eq_decide, ne_eq]
  split <;> split <;> omega

theorem aluSub_eq (a b : Word) : aluSub a b = (a - b, subFlags a b) := by
  have ha := a.isLt
  have hb := b.isLt
  have h : BitVec.ofInt 32 ((a.toNat : Int) - (b.toNat : Int)) = a - b := by
    apply BitVec.eq_of_toNat_eq
    rw [BitVec.toNat_ofInt, BitVec.toNat_sub]
    omega
  simp only [aluSub, h, flagsOf, subFlags, getLsbD_31_eq_msb, sub_eq_zero_iff_eq]
  congr 2
  rw [Bool.eq_iff_iff]
  simp only [fitsSigned, BitVec.msb_eq_decide, BitVec.toInt_eq_toNat_cond, BitVec.toNat_sub, Bool.and_eq_true,
    Bool.not_eq_true', Bool.and_eq_false_iff, decide_eq_true_eq, decide_eq_false_iff_not, decide_eq_decide, ne_eq]
  split <;> split <;> omega

theorem aluLogic_eq (r : Word) : aluLogic r = (r, logicFlags r) := by
  simp only [aluLogic, flagsOf_eq, logicFlags]

theorem shiftAmount_eq (b : Word) : shiftAmount b = amount b := by simp [shiftAmount, amount]

theorem shiftCarry_eq (n : Nat) (x : Bool) : (if n = 0 then false else x) = (decide (n ≠ 0) && x) := by
  by_cases h : n = 0 <;> simp [h]

theorem aluShl_eq (a b : Word) :
    aluShl a b = (a <<< amount b,
      { logicFlags (a <<< amount b) with c := decide (amount b ≠ 0) && a.getLsbD (32 - amount b) }) := by
  have h : BitVec.ofNat 32 (a.toNat * 2 ^ amount b) = a <<< amount b := by
    apply BitVec.eq_of_toNat_eq; simp [Nat.shiftLeft_eq]
  simp only [aluShl, shiftAmount_eq, h, flagsOf_eq, logicFlags, shiftCarry_eq]

theorem aluShr_eq (a b : Word) :
    aluShr a b = (a >>> amount b,
      { logicFlags (a >>> amount b) with c := decide (amount b ≠ 0) && a.getLsbD (amount b - 1) }) := by
  have h : BitVec.ofNat 32 (a.toNat / 2 ^ amount b) = a >>> amount b := by
    apply BitVec.eq_of_toNat_eq
    simp only [BitVec.toNat_ofNat, BitVec.toNat_ushiftRight, Nat.shiftRight_eq_div_pow]
    exact Nat.mod_eq_of_lt (lt_of_le_of_lt (Nat.div_le_self _ _) a.isLt)
  simp only [aluShr, shiftAmount_eq, h, flagsOf_eq, logicFlags, shiftCarry_eq]

theorem aluSar_eq (a b : Word) :
    aluSar a b = (a.sshiftRight (amount b),
      { logicFlags (a.sshiftRight (amount b)) with c := decide (amount b ≠ 0) && a.getLsbD (amount b - 1) }) := by
  have h : BitVec.ofInt 32 (a.toInt / (2 ^ amount b : Nat)) = a.sshiftRight (amount b) := by
    rw [BitVec.sshiftRight, Int.shiftRight_eq_div_pow]
  simp only [aluSar, shiftAmount_eq, h, flagsOf_eq, logicFlags, shiftCarry_eq]

theorem aluMul_eq (a b : Word) :
    aluMul a b = (a * b,
      { logicFlags (a * b) with c := decide (2 ^ 32 ≤ a.toNat * b.toNat), v := !fitsSigned (a.toInt * b.toInt) }) := by
  have h : BitVec.ofNat 32 (a.toNat * b.toNat) = a * b := by apply BitVec.eq_of_toNat_eq; simp
  simp only [aluMul, h, flagsOf_eq]
  congr 2
  rw [Bool.eq_iff_iff]
  simp only [fitsSigned, Bool.or_eq_true, Bool.not_eq_true', Bool.and_eq_false_iff, decide_eq_true_eq,
    decide_eq_false_iff_not]
  omega

theorem aluDiv_eq (a b : Word) :
    aluDiv a b = (a.sdiv b,
      { logicFlags (a.sdiv b) with v := decide (a = 0x80000000#32 ∧ b = 0xFFFFFFFF#32) }) := by
  unfold aluDiv
  split
  · rename_i h; obtain ⟨rfl, rfl⟩ := h; decide
  · rename_i h
    have hq : BitVec.ofInt 32 (Int.tdiv a.toInt b.toInt) = a.sdiv b := by
      apply BitVec.eq_of_toInt_eq; rw [BitVec.toInt_sdiv]; simp
    simp only [hq, flagsOf_eq, logicFlags, h, decide_false]

theorem aluDivu_eq (a b : Word) : aluDivu a b = (a / b, logicFlags (a / b)) := by
  have h : BitVec.ofNat 32 (a.toNat / b.toNat) = a / b := by
    apply BitVec.eq_of_toNat_eq
    simp only [BitVec.toNat_ofNat, BitVec.toNat_udiv]
    exact Nat.mod_eq_of_lt (lt_of_le_of_lt (Nat.div_le_self _ _) a.isLt)
  simp only [aluDivu, h, flagsOf_eq, logicFlags]

theorem aluRem_eq (a b : Word) : aluRem a b = (a.srem b, logicFlags (a.srem b)) := by
  have h : BitVec.ofInt 32 (a.toInt - b.toInt * Int.tdiv a.toInt b.toInt) = a.srem b := by
    apply BitVec.eq_of_toInt_eq
    rw [← Int.tmod_def, ← BitVec.toInt_srem, BitVec.ofInt_toInt]
  simp only [aluRem, h, flagsOf_eq, logicFlags]

theorem aluRemu_eq (a b : Word) : aluRemu a b = (a % b, logicFlags (a % b)) := by
  have h : BitVec.ofNat 32 (a.toNat % b.toNat) = a % b := by
    apply BitVec.eq_of_toNat_eq
    simp only [BitVec.toNat_ofNat, BitVec.toNat_umod]
    exact Nat.mod_eq_of_lt (lt_of_le_of_lt (Nat.mod_le _ _) a.isLt)
  simp only [aluRemu, h, flagsOf_eq, logicFlags]

end Sys2Proof.Machine
end

