-- ==== Sys2Proof/Laws/State.lean ====
section
/-! SUPPORT. One lemma for each field of the state and each update, so that no later proof unfolds a record update; and what a
register reads as after each update. -/

namespace Sys2Proof.Machine

/-! ### `setReg` -/

theorem State.setReg_zero (s : State) (v : Word) : s.setReg 0#5 v = s := if_pos rfl

@[simp] theorem State.setReg_cfg (s : State) (i : RegIdx) (v : Word) : (s.setReg i v).cfg = s.cfg := by
  unfold State.setReg; split <;> rfl

@[simp] theorem State.setReg_pc (s : State) (i : RegIdx) (v : Word) : (s.setReg i v).pc = s.pc := by
  unfold State.setReg; split <;> rfl

@[simp] theorem State.setReg_flags (s : State) (i : RegIdx) (v : Word) : (s.setReg i v).flags = s.flags := by
  unfold State.setReg; split <;> rfl

@[simp] theorem State.setReg_status (s : State) (i : RegIdx) (v : Word) : (s.setReg i v).status = s.status := by
  unfold State.setReg; split <;> rfl

@[simp] theorem State.setReg_cause (s : State) (i : RegIdx) (v : Word) : (s.setReg i v).cause = s.cause := by
  unfold State.setReg; split <;> rfl

@[simp] theorem State.setReg_eaddr (s : State) (i : RegIdx) (v : Word) : (s.setReg i v).eaddr = s.eaddr := by
  unfold State.setReg; split <;> rfl

@[simp] theorem State.setReg_epc (s : State) (i : RegIdx) (v : Word) : (s.setReg i v).epc = s.epc := by
  unfold State.setReg; split <;> rfl

@[simp] theorem State.setReg_eflags (s : State) (i : RegIdx) (v : Word) : (s.setReg i v).eflags = s.eflags := by
  unfold State.setReg; split <;> rfl

@[simp] theorem State.setReg_irq (s : State) (i : RegIdx) (v : Word) : (s.setReg i v).irq = s.irq := by
  unfold State.setReg; split <;> rfl

@[simp] theorem State.setReg_haltReq (s : State) (i : RegIdx) (v : Word) : (s.setReg i v).haltReq = s.haltReq := by
  unfold State.setReg; split <;> rfl

@[simp] theorem State.setReg_halted (s : State) (i : RegIdx) (v : Word) : (s.setReg i v).halted = s.halted := by
  unfold State.setReg; split <;> rfl

@[simp] theorem State.setReg_haltReason (s : State) (i : RegIdx) (v : Word) : (s.setReg i v).haltReason = s.haltReason := by
  unfold State.setReg; split <;> rfl

@[simp] theorem State.setReg_mem (s : State) (i : RegIdx) (v : Word) : (s.setReg i v).mem = s.mem := by
  unfold State.setReg; split <;> rfl

/-! ### `State.setFlags` -/

@[simp] theorem State.setFlags_cfg (s : State) (f : Flags) : (s.setFlags f).cfg = s.cfg := rfl

@[simp] theorem State.setFlags_regs (s : State) (f : Flags) : (s.setFlags f).regs = s.regs := rfl

@[simp] theorem State.setFlags_pc (s : State) (f : Flags) : (s.setFlags f).pc = s.pc := rfl

@[simp] theorem State.setFlags_flags (s : State) (f : Flags) : (s.setFlags f).flags = f := rfl

@[simp] theorem State.setFlags_status (s : State) (f : Flags) : (s.setFlags f).status = s.status := rfl

@[simp] theorem State.setFlags_cause (s : State) (f : Flags) : (s.setFlags f).cause = s.cause := rfl

@[simp] theorem State.setFlags_eaddr (s : State) (f : Flags) : (s.setFlags f).eaddr = s.eaddr := rfl

@[simp] theorem State.setFlags_epc (s : State) (f : Flags) : (s.setFlags f).epc = s.epc := rfl

@[simp] theorem State.setFlags_eflags (s : State) (f : Flags) : (s.setFlags f).eflags = s.eflags := rfl

@[simp] theorem State.setFlags_irq (s : State) (f : Flags) : (s.setFlags f).irq = s.irq := rfl

@[simp] theorem State.setFlags_haltReq (s : State) (f : Flags) : (s.setFlags f).haltReq = s.haltReq := rfl

@[simp] theorem State.setFlags_halted (s : State) (f : Flags) : (s.setFlags f).halted = s.halted := rfl

@[simp] theorem State.setFlags_haltReason (s : State) (f : Flags) : (s.setFlags f).haltReason = s.haltReason := rfl

@[simp] theorem State.setFlags_mem (s : State) (f : Flags) : (s.setFlags f).mem = s.mem := rfl

/-! ### `State.memWrite` -/

@[simp] theorem State.memWrite_cfg (s : State) (a : Word) (n : Nat) (v : Word) : (s.memWrite a n v).cfg = s.cfg := rfl

@[simp] theorem State.memWrite_regs (s : State) (a : Word) (n : Nat) (v : Word) : (s.memWrite a n v).regs = s.regs := rfl

@[simp] theorem State.memWrite_pc (s : State) (a : Word) (n : Nat) (v : Word) : (s.memWrite a n v).pc = s.pc := rfl

@[simp] theorem State.memWrite_flags (s : State) (a : Word) (n : Nat) (v : Word) : (s.memWrite a n v).flags = s.flags := rfl

@[simp] theorem State.memWrite_status (s : State) (a : Word) (n : Nat) (v : Word) : (s.memWrite a n v).status = s.status := rfl

@[simp] theorem State.memWrite_cause (s : State) (a : Word) (n : Nat) (v : Word) : (s.memWrite a n v).cause = s.cause := rfl

@[simp] theorem State.memWrite_eaddr (s : State) (a : Word) (n : Nat) (v : Word) : (s.memWrite a n v).eaddr = s.eaddr := rfl

@[simp] theorem State.memWrite_epc (s : State) (a : Word) (n : Nat) (v : Word) : (s.memWrite a n v).epc = s.epc := rfl

@[simp] theorem State.memWrite_eflags (s : State) (a : Word) (n : Nat) (v : Word) : (s.memWrite a n v).eflags = s.eflags := rfl

@[simp] theorem State.memWrite_irq (s : State) (a : Word) (n : Nat) (v : Word) : (s.memWrite a n v).irq = s.irq := rfl

@[simp] theorem State.memWrite_haltReq (s : State) (a : Word) (n : Nat) (v : Word) : (s.memWrite a n v).haltReq = s.haltReq := rfl

@[simp] theorem State.memWrite_halted (s : State) (a : Word) (n : Nat) (v : Word) : (s.memWrite a n v).halted = s.halted := rfl

@[simp] theorem State.memWrite_haltReason (s : State) (a : Word) (n : Nat) (v : Word) : (s.memWrite a n v).haltReason = s.haltReason := rfl

@[simp] theorem State.memWrite_mem (s : State) (a : Word) (n : Nat) (v : Word) : (s.memWrite a n v).mem = Memory.writeLE s.mem a.toNat n v := rfl

/-! ### `enterHandler` -/

@[simp] theorem enterHandler_cfg (t : Trap) (epc h : Word) (s : State) : (enterHandler t epc h s).cfg = s.cfg := rfl

@[simp] theorem enterHandler_regs (t : Trap) (epc h : Word) (s : State) : (enterHandler t epc h s).regs = s.regs := rfl

@[simp] theorem enterHandler_pc (t : Trap) (epc h : Word) (s : State) : (enterHandler t epc h s).pc = h := rfl

@[simp] theorem enterHandler_flags (t : Trap) (epc h : Word) (s : State) : (enterHandler t epc h s).flags = s.flags := rfl

@[simp] theorem enterHandler_status (t : Trap) (epc h : Word) (s : State) : (enterHandler t epc h s).status = s.status.enter := rfl

@[simp] theorem enterHandler_cause (t : Trap) (epc h : Word) (s : State) : (enterHandler t epc h s).cause = t.causeWord := rfl

@[simp] theorem enterHandler_eaddr (t : Trap) (epc h : Word) (s : State) : (enterHandler t epc h s).eaddr = t.value := rfl

@[simp] theorem enterHandler_epc (t : Trap) (epc h : Word) (s : State) : (enterHandler t epc h s).epc = epc := rfl

@[simp] theorem enterHandler_eflags (t : Trap) (epc h : Word) (s : State) : (enterHandler t epc h s).eflags = s.flags.bits := rfl

@[simp] theorem enterHandler_irq (t : Trap) (epc h : Word) (s : State) : (enterHandler t epc h s).irq = (if t.cause = .externalInterrupt then false else s.irq) := rfl

@[simp] theorem enterHandler_haltReq (t : Trap) (epc h : Word) (s : State) : (enterHandler t epc h s).haltReq = s.haltReq := rfl

@[simp] theorem enterHandler_halted (t : Trap) (epc h : Word) (s : State) : (enterHandler t epc h s).halted = s.halted := rfl

@[simp] theorem enterHandler_haltReason (t : Trap) (epc h : Word) (s : State) : (enterHandler t epc h s).haltReason = s.haltReason := rfl

@[simp] theorem enterHandler_mem (t : Trap) (epc h : Word) (s : State) : (enterHandler t epc h s).mem = s.mem := rfl

/-! ### `leaveHandler` -/

@[simp] theorem leaveHandler_cfg (s : State) : (leaveHandler s).cfg = s.cfg := rfl

@[simp] theorem leaveHandler_regs (s : State) : (leaveHandler s).regs = s.regs := rfl

@[simp] theorem leaveHandler_pc (s : State) : (leaveHandler s).pc = s.pc := rfl

@[simp] theorem leaveHandler_flags (s : State) : (leaveHandler s).flags = Flags.ofBits s.eflags := rfl

@[simp] theorem leaveHandler_status (s : State) : (leaveHandler s).status = s.status.leave := rfl

@[simp] theorem leaveHandler_cause (s : State) : (leaveHandler s).cause = 0x00000000#32 := rfl

@[simp] theorem leaveHandler_eaddr (s : State) : (leaveHandler s).eaddr = 0x00000000#32 := rfl

@[simp] theorem leaveHandler_epc (s : State) : (leaveHandler s).epc = 0x00000000#32 := rfl

@[simp] theorem leaveHandler_eflags (s : State) : (leaveHandler s).eflags = 0#4 := rfl

@[simp] theorem leaveHandler_irq (s : State) : (leaveHandler s).irq = s.irq := rfl

@[simp] theorem leaveHandler_haltReq (s : State) : (leaveHandler s).haltReq = s.haltReq := rfl

@[simp] theorem leaveHandler_halted (s : State) : (leaveHandler s).halted = s.halted := rfl

@[simp] theorem leaveHandler_haltReason (s : State) : (leaveHandler s).haltReason = s.haltReason := rfl

@[simp] theorem leaveHandler_mem (s : State) : (leaveHandler s).mem = s.mem := rfl

/-! ### `haltWith` -/

@[simp] theorem haltWith_cfg (r : HaltReason) (s : State) : ((haltWith r s).1).cfg = s.cfg := rfl

@[simp] theorem haltWith_regs (r : HaltReason) (s : State) : ((haltWith r s).1).regs = s.regs := rfl

@[simp] theorem haltWith_pc (r : HaltReason) (s : State) : ((haltWith r s).1).pc = s.pc := rfl

@[simp] theorem haltWith_flags (r : HaltReason) (s : State) : ((haltWith r s).1).flags = s.flags := rfl

@[simp] theorem haltWith_status (r : HaltReason) (s : State) : ((haltWith r s).1).status = s.status := rfl

@[simp] theorem haltWith_cause (r : HaltReason) (s : State) : ((haltWith r s).1).cause = s.cause := rfl

@[simp] theorem haltWith_eaddr (r : HaltReason) (s : State) : ((haltWith r s).1).eaddr = s.eaddr := rfl

@[simp] theorem haltWith_epc (r : HaltReason) (s : State) : ((haltWith r s).1).epc = s.epc := rfl

@[simp] theorem haltWith_eflags (r : HaltReason) (s : State) : ((haltWith r s).1).eflags = s.eflags := rfl

@[simp] theorem haltWith_irq (r : HaltReason) (s : State) : ((haltWith r s).1).irq = s.irq := rfl

@[simp] theorem haltWith_haltReq (r : HaltReason) (s : State) : ((haltWith r s).1).haltReq = s.haltReq := rfl

@[simp] theorem haltWith_halted (r : HaltReason) (s : State) : ((haltWith r s).1).halted = true := rfl

@[simp] theorem haltWith_haltReason (r : HaltReason) (s : State) : ((haltWith r s).1).haltReason = some r := rfl

@[simp] theorem haltWith_mem (r : HaltReason) (s : State) : ((haltWith r s).1).mem = s.mem := rfl

/-! ### `setCsr` -/

@[simp] theorem State.setCsr_cfg (s : State) (c : Csr) (v : Word) : (s.setCsr c v).cfg = s.cfg := by
  cases c <;> rfl

@[simp] theorem State.setCsr_regs (s : State) (c : Csr) (v : Word) : (s.setCsr c v).regs = s.regs := by
  cases c <;> rfl

@[simp] theorem State.setCsr_pc (s : State) (c : Csr) (v : Word) : (s.setCsr c v).pc = s.pc := by
  cases c <;> rfl

@[simp] theorem State.setCsr_irq (s : State) (c : Csr) (v : Word) : (s.setCsr c v).irq = s.irq := by
  cases c <;> rfl

@[simp] theorem State.setCsr_haltReq (s : State) (c : Csr) (v : Word) : (s.setCsr c v).haltReq = s.haltReq := by
  cases c <;> rfl

@[simp] theorem State.setCsr_halted (s : State) (c : Csr) (v : Word) : (s.setCsr c v).halted = s.halted := by
  cases c <;> rfl

@[simp] theorem State.setCsr_haltReason (s : State) (c : Csr) (v : Word) : (s.setCsr c v).haltReason = s.haltReason := by
  cases c <;> rfl

@[simp] theorem State.setCsr_mem (s : State) (c : Csr) (v : Word) : (s.setCsr c v).mem = s.mem := by
  cases c <;> rfl

@[simp] theorem State.setCsr_inh (s : State) (c : Csr) (v : Word) : (s.setCsr c v).status.inh = s.status.inh := by
  cases c <;> rfl

/-! ### Registers -/

@[simp] theorem State.reg_zero (s : State) : s.reg 0#5 = 0x00000000#32 := if_pos rfl

/-- A register reads only the register file. -/
theorem State.reg_congr {s t : State} (h : t.regs = s.regs) (i : RegIdx) : t.reg i = s.reg i := by
  simp only [State.reg, h]

/-- A register other than 0 reads the value just written to it. -/
theorem State.reg_setReg_same (s : State) {i : RegIdx} (v : Word) (h : i ≠ 0#5) : (s.setReg i v).reg i = v := by
  simp [State.reg, State.setReg, h]

/-- A write leaves every other register alone. -/
theorem State.reg_setReg_of_ne (s : State) {i j : RegIdx} (v : Word) (h : j ≠ i) : (s.setReg i v).reg j = s.reg j := by
  by_cases hj : j = 0#5
  · simp [State.reg, hj]
  · by_cases hi : i = 0#5
    · rw [hi, State.setReg_zero]
    · have hij : i.toNat ≠ j.toNat := fun e => h (BitVec.eq_of_toNat_eq e.symm)
      have hi0 : i.toNat ≠ 0 := fun e => hi (BitVec.eq_of_toNat_eq e)
      have hj0 : j.toNat ≠ 0 := fun e => hj (BitVec.eq_of_toNat_eq e)
      simp only [State.reg, State.setReg, hi, hj, if_false]
      exact Vector.getElem_set_ne _ _ (by omega)

/-- Every register after a write: register 0 reads 0, the one written reads the value, the others are as before. -/
theorem State.reg_setReg (s : State) (i j : RegIdx) (v : Word) :
    (s.setReg i v).reg j = if j = i then (if i = 0#5 then 0x00000000#32 else v) else s.reg j := by
  split
  · rename_i h
    subst h
    split
    · rename_i h0
      rw [h0]; exact State.reg_zero _
    · rename_i h0
      exact State.reg_setReg_same s v h0
  · rename_i h
    exact State.reg_setReg_of_ne s v h

@[simp] theorem State.setFlags_reg (s : State) (f : Flags) (i : RegIdx) : (s.setFlags f).reg i = s.reg i := rfl

@[simp] theorem State.memWrite_reg (s : State) (a : Word) (n : Nat) (v : Word) (i : RegIdx) : (s.memWrite a n v).reg i = s.reg i := rfl

@[simp] theorem enterHandler_reg (t : Trap) (epc h : Word) (s : State) (i : RegIdx) : (enterHandler t epc h s).reg i = s.reg i := rfl

@[simp] theorem leaveHandler_reg (s : State) (i : RegIdx) : (leaveHandler s).reg i = s.reg i := rfl

@[simp] theorem haltWith_reg (r : HaltReason) (s : State) (i : RegIdx) : ((haltWith r s).1).reg i = s.reg i := rfl

@[simp] theorem State.setCsr_reg (s : State) (c : Csr) (v : Word) (i : RegIdx) : (s.setCsr c v).reg i = s.reg i :=
  State.reg_congr (State.setCsr_regs s c v) i

end Sys2Proof.Machine
end

