-- ==== Sys2Proof/Laws/Ops.lean ====
section
/-! SUPPORT. For each shared operation, once, everything it can do; later proofs cite these instead of unfolding it. -/

namespace Sys2Proof.Machine

/-! ### The access check (spec/20_memory.md R53, R58) -/

theorem checkAccess_eq_none {cap : Nat} {a : Word} {n : Nat} :
    checkAccess cap a n = none ↔ a.toNat + n ≤ cap ∧ a.toNat % n = 0 := by
  unfold checkAccess
  split
  · simp; omega
  · split <;> simp <;> omega

theorem checkAccess_eq_outOfBounds {cap : Nat} {a : Word} {n : Nat} :
    checkAccess cap a n = some .outOfBounds ↔ cap < a.toNat + n := by
  unfold checkAccess
  split
  · simp; omega
  · split <;> simp <;> omega

theorem checkAccess_eq_misaligned {cap : Nat} {a : Word} {n : Nat} :
    checkAccess cap a n = some .misaligned ↔ a.toNat + n ≤ cap ∧ a.toNat % n ≠ 0 := by
  unfold checkAccess
  split
  · simp; omega
  · split <;> simp <;> omega

/-- `TargetOk(t)` is `Check(t, 4)` answering ok. -/
theorem targetOk_iff {cap : Nat} {t : Word} : targetOk cap t = true ↔ checkAccess cap t 4 = none := by
  rw [checkAccess_eq_none]
  simp [targetOk]
  omega

/-! ### Traps -/

/-- Trap vectoring: the unhandled halt, or trap entry at the handler. -/
theorem vectorTrap_cases {t : Trap} {epc : Word} {s s' : State} {r : StepResult} (h : vectorTrap t epc s = (s', r)) :
    (VectorTable.handler s.cfg.vectors t.cause = none ∧ s' = (haltWith (.unhandled t) s).1 ∧ r = .halted (.unhandled t)) ∨
    (∃ a, VectorTable.handler s.cfg.vectors t.cause = some a ∧ s' = enterHandler t epc a s ∧
      r = if t.cause = .externalInterrupt then .interrupted else .trapped t) := by
  unfold vectorTrap at h
  split at h
  · rename_i hn
    simp only [haltWith, Prod.mk.injEq] at h
    exact .inl ⟨hn, h.1.symm, h.2.symm⟩
  · rename_i a ha
    simp only [Prod.mk.injEq] at h
    exact .inr ⟨a, ha, h.1.symm, h.2.symm⟩

/-- A synchronous trap: the double fault, or its vectoring with EPC the step's pc. -/
theorem takeSync_cases {t : Trap} {s s' : State} {r : StepResult} (h : takeSync t s = (s', r)) :
    (s.status.inh = true ∧ s.status.ie = false ∧ s' = (haltWith (.doubleFault t) s).1 ∧ r = .halted (.doubleFault t)) ∨
    (¬(s.status.inh = true ∧ s.status.ie = false) ∧ vectorTrap t s.pc s = (s', r)) := by
  unfold takeSync at h
  split at h
  · rename_i hc
    simp only [haltWith, Prod.mk.injEq] at h
    exact .inl ⟨hc.1, hc.2, h.1.symm, h.2.symm⟩
  · rename_i hc
    exact .inr ⟨hc, h⟩

/-- Flags packed and unpacked are the same flags (spec/10_state.md R28). -/
@[simp] theorem Flags.ofBits_bits (f : Flags) : Flags.ofBits f.bits = f := by
  obtain ⟨c, z, n, v⟩ := f
  cases c <;> cases z <;> cases n <;> cases v <;> rfl

/-- The CAUSE words of the traps (spec/10_state.md R31). -/
theorem causeWords (a w : Word) (imm15 : BitVec 15) :
    (trapMemory .outOfBounds a).causeWord = 0x00000002#32 ∧ (trapMemory .misaligned a).causeWord = 0x00000102#32 ∧
    (trapUndecoded w).causeWord = 0x00000001#32 ∧ (trapPrivilege w).causeWord = 0x00000101#32 ∧
    trapDivide.causeWord = 0x00000003#32 ∧ (trapSoftware imm15).causeWord = 0x00000004#32 ∧
    trapExternal.causeWord = 0x00000005#32 := by
  simp [Trap.causeWord, trapMemory, trapUndecoded, trapPrivilege, trapDivide, trapSoftware, trapExternal, FaultKind.detail,
    Cause.code]

/-! ### Control effects -/

/-- The privilege check: the rest of the pseudocode in supervisor mode, the privilege trap in user mode. -/
theorem requireSupervisor_cases {w : Word} {s : State} {rest r : State × Effect} (h : requireSupervisor w s rest = r) :
    (s.status.priv = true ∧ r = rest) ∨ (s.status.priv = false ∧ r = (s, .trap (trapPrivilege w))) := by
  unfold requireSupervisor at h
  split at h
  · rename_i hp; exact .inl ⟨hp, h.symm⟩
  · rename_i hp; exact .inr ⟨by simpa using hp, h.symm⟩

/-- A transfer: the jump to a good target, or the memory fault of a bad one with nothing written. -/
theorem transfer_cases {t : Word} {s s' : State} {r : State × Effect} (h : transfer t s s' = r) :
    (s.check t 4 = none ∧ r = (s', .jump t)) ∨ (∃ k, s.check t 4 = some k ∧ r = (s, .trap (trapMemory k t))) := by
  unfold transfer at h
  split at h
  · rename_i k hk; exact .inr ⟨k, hk, h.symm⟩
  · rename_i hk; exact .inl ⟨hk, h.symm⟩

/-- A load: the register write, or the memory fault with nothing written. -/
theorem load_cases {w : Width} {e : Ext} {rd : RegIdx} {addr : MemAddr} {s : State} {r : State × Effect}
    (h : load w e rd addr s = r) :
    (s.check (s.ea addr) (Width.bytes w) = none ∧
      r = (s.setReg rd (extend w e (s.memRead (s.ea addr) (Width.bytes w))), .next)) ∨
    (∃ k, s.check (s.ea addr) (Width.bytes w) = some k ∧ r = (s, .trap (trapMemory k (s.ea addr)))) := by
  simp only [load] at h
  split at h
  · rename_i k hk; exact .inr ⟨k, hk, h.symm⟩
  · rename_i hk; exact .inl ⟨hk, h.symm⟩

/-- A store: the memory write, or the memory fault with nothing written. -/
theorem store_cases {w : Width} {rd : RegIdx} {addr : MemAddr} {s : State} {r : State × Effect} (h : store w rd addr s = r) :
    (s.check (s.ea addr) (Width.bytes w) = none ∧ r = (s.memWrite (s.ea addr) (Width.bytes w) (s.reg rd), .next)) ∨
    (∃ k, s.check (s.ea addr) (Width.bytes w) = some k ∧ r = (s, .trap (trapMemory k (s.ea addr)))) := by
  simp only [store] at h
  split at h
  · rename_i k hk; exact .inr ⟨k, hk, h.symm⟩
  · rename_i hk; exact .inl ⟨hk, h.symm⟩

/-- A division: its result when the divisor is not 0, the DivideByZero trap when it is. -/
theorem divide_cases {f : Word → Word → Word × Flags} {rd rs1 : RegIdx} {src : Src2} {s : State} {r : State × Effect}
    (h : divide f rd rs1 src s = r) :
    (s.src2 src ≠ 0x00000000#32 ∧ r = arith f rd rs1 src s) ∨ (s.src2 src = 0x00000000#32 ∧ r = (s, .trap trapDivide)) := by
  unfold divide at h
  split at h
  · rename_i h0; exact .inr ⟨h0, h.symm⟩
  · rename_i h0; exact .inl ⟨h0, h.symm⟩

/-- Every instruction's answer is its control effect applied: no arm faults or refuses. -/
theorem exec_eq_execute (i : Instr) (s : State) : exec i s = .next (applyEffect (execute i s)).1 := by
  cases i <;> rfl

/-! ### The start of a step -/

/-- The boundary: what settles a step, in the order of spec/60_exceptions.md R205, or the instruction that runs. -/
theorem boundary_cases (s : State) :
    (s.halted = true ∧ boundary s = .settled (s, .alreadyHalted)) ∨
    (s.halted = false ∧ s.haltReq = true ∧ boundary s = .settled (haltWith .externalHalt { s with haltReq := false })) ∨
    (s.halted = false ∧ s.haltReq = false ∧ s.irq = true ∧ s.status.ie = true ∧
      boundary s = .settled (vectorTrap trapExternal s.pc s)) ∨
    (s.halted = false ∧ s.haltReq = false ∧ ¬(s.irq = true ∧ s.status.ie = true) ∧
      ((∃ k, s.check s.pc 4 = some k ∧ boundary s = .settled (takeSync (trapMemory k s.pc) s)) ∨
       (∃ e, s.check s.pc 4 = none ∧ decode s.fetchWord = .error e ∧
         boundary s = .settled (takeSync (trapUndecoded s.fetchWord) s)) ∨
       (∃ i, s.check s.pc 4 = none ∧ decode s.fetchWord = .ok i ∧ boundary s = .run i))) := by
  unfold boundary fetchDecode
  split
  · rename_i h; exact .inl ⟨h, rfl⟩
  · rename_i h
    have hh : s.halted = false := by simpa using h
    split
    · rename_i h2; exact .inr (.inl ⟨hh, h2, rfl⟩)
    · rename_i h2
      have hr : s.haltReq = false := by simpa using h2
      split
      · rename_i h3; exact .inr (.inr (.inl ⟨hh, hr, h3.1, h3.2, rfl⟩))
      · rename_i h3
        refine .inr (.inr (.inr ⟨hh, hr, h3, ?_⟩))
        split
        · rename_i k hk; exact .inl ⟨k, hk, rfl⟩
        · rename_i hk
          split
          · rename_i e he; exact .inr (.inl ⟨e, hk, he, rfl⟩)
          · rename_i i hi; exact .inr (.inr ⟨i, hk, hi, rfl⟩)

end Sys2Proof.Machine
end

