-- ==== Sys2Proof/Laws/Effects.lean ====
section
/-! SUPPORT. Once, everything an instruction can do: its effect has one of eleven shapes. Proofs over all instructions cite this
inversion and never unfold a meaning. -/

namespace Sys2Proof.Machine

/-- The shapes of what an instruction's pseudocode writes and its control effect. -/
inductive EffectShape (i : Instr) (s : State) : State × Effect → Prop where
  | traps (tr : Trap) (external : tr.cause ≠ .externalInterrupt) (double : tr.cause ≠ .doubleFault) :
      EffectShape i s (s, .trap tr)
  | writesReg (rd : RegIdx) (v : Word) (dest : destReg i = some rd) : EffectShape i s (s.setReg rd v, .next)
  | writesRegAndFlags (rd : RegIdx) (v : Word) (f : Flags) (dest : destReg i = some rd) (flags : writesFlags i = true) :
      EffectShape i s ((s.setReg rd v).setFlags f, .next)
  | writesOnlyFlags (f : Flags) (flags : writesFlags i = true) : EffectShape i s (s.setFlags f, .next)
  | stores (ea : Word) (n : Nat) (rd : RegIdx) (access : storeAccess i s = some (ea, n, rd))
      (check : s.check ea n = none) : EffectShape i s (s.memWrite ea n (s.reg rd), .next)
  | jumps (t : Word) (check : s.check t 4 = none) : EffectShape i s (s, .jump t)
  | links (rd : RegIdx) (v t : Word) (dest : destReg i = some rd) (check : s.check t 4 = none) :
      EffectShape i s (s.setReg rd v, .jump t)
  | halts (is : i = .halt) (supervisor : s.status.priv = true) : EffectShape i s (s, .halt)
  | returns (is : i = .rti) (supervisor : s.status.priv = true) (check : s.check s.epc 4 = none) :
      EffectShape i s (leaveHandler s, .jump s.epc)
  | writesCsr (c : Csr) (v : Word) (origin : c = .status → ∃ rs1, i = .mtsrStatus rs1 ∧ v = s.reg rs1)
      (allowed : c = .flags ∨ (s.status.priv = true ∧ writesControl i = true))
      (flags : c = .flags → writesFlags i = true) : EffectShape i s (s.setCsr c v, .next)
  | writesNothing : EffectShape i s (s, .next)

variable {i : Instr} {s : State}

theorem arith_shape {f : Word → Word → Word × Flags} {rd rs1 : RegIdx} {src : Src2} (dest : destReg i = some rd)
    (flags : writesFlags i = true) : EffectShape i s (arith f rd rs1 src s) :=
  .writesRegAndFlags rd _ _ dest flags

theorem flagsOnly_shape {f : Word → Word → Word × Flags} {rs1 : RegIdx} {src : Src2} (flags : writesFlags i = true) :
    EffectShape i s (flagsOnly f rs1 src s) :=
  .writesOnlyFlags _ flags

theorem divide_shape {f : Word → Word → Word × Flags} {rd rs1 : RegIdx} {src : Src2} (dest : destReg i = some rd)
    (flags : writesFlags i = true) : EffectShape i s (divide f rd rs1 src s) := by
  rcases divide_cases (r := divide f rd rs1 src s) rfl with ⟨_, h⟩ | ⟨_, h⟩ <;> rw [h]
  · exact arith_shape dest flags
  · exact .traps _ (by decide) (by decide)

theorem load_shape {w : Width} {e : Ext} {rd : RegIdx} {addr : MemAddr} (dest : destReg i = some rd) :
    EffectShape i s (load w e rd addr s) := by
  rcases load_cases (r := load w e rd addr s) rfl with ⟨_, h⟩ | ⟨k, _, h⟩ <;> rw [h]
  · exact .writesReg rd _ dest
  · exact .traps _ (by simp [trapMemory]) (by simp [trapMemory])

theorem store_shape {w : Width} {rd : RegIdx} {addr : MemAddr}
    (access : storeAccess i s = some (s.ea addr, Width.bytes w, rd)) : EffectShape i s (store w rd addr s) := by
  rcases store_cases (r := store w rd addr s) rfl with ⟨hc, h⟩ | ⟨k, _, h⟩ <;> rw [h]
  · exact .stores _ _ rd access hc
  · exact .traps _ (by simp [trapMemory]) (by simp [trapMemory])

theorem jumpAndLink_shape {rd : RegIdx} {t : Word} (dest : destReg i = some rd) : EffectShape i s (jumpAndLink rd t s) := by
  rcases transfer_cases (r := jumpAndLink rd t s) rfl with ⟨hc, h⟩ | ⟨k, _, h⟩ <;> rw [h]
  · exact .links rd _ t dest hc
  · exact .traps _ (by simp [trapMemory]) (by simp [trapMemory])

theorem effBcc_shape {c : Cond} {imm22 : BitVec 22} : EffectShape i s (effBcc c imm22 s) := by
  unfold effBcc
  split
  · rcases transfer_cases (r := transfer (bccTarget s.pc imm22) s s) rfl with ⟨hc, h⟩ | ⟨k, _, h⟩ <;> rw [h]
    · exact .jumps _ hc
    · exact .traps _ (by simp [trapMemory]) (by simp [trapMemory])
  · exact .writesNothing

theorem requireForCsr_cases {c : Csr} {w : Word} {rest r : State × Effect} (h : requireForCsr c w s rest = r) :
    ((c = .flags ∨ s.status.priv = true) ∧ r = rest) ∨ (s.status.priv = false ∧ r = (s, .trap (trapPrivilege w))) := by
  unfold requireForCsr at h
  split at h
  · rename_i hc; exact .inl ⟨.inl hc, h.symm⟩
  · rcases requireSupervisor_cases h with ⟨hp, hr⟩ | hr
    · exact .inl ⟨.inr hp, hr⟩
    · exact .inr hr

theorem effMfsr_shape {c : Csr} {rd : RegIdx} {w : Word} (dest : destReg i = some rd) : EffectShape i s (effMfsr c rd w s) := by
  rcases requireForCsr_cases (r := effMfsr c rd w s) rfl with ⟨_, h⟩ | ⟨_, h⟩ <;> rw [h]
  · exact .writesReg rd _ dest
  · exact .traps _ (by simp [trapPrivilege]) (by simp [trapPrivilege])

theorem effMtsr_shape {c : Csr} {rs1 : RegIdx} {w : Word} (origin : c = .status → i = .mtsrStatus rs1) (allowed : c = .flags ∨ writesControl i = true)
    (flags : c = .flags → writesFlags i = true) : EffectShape i s (effMtsr c rs1 w s) := by
  rcases requireForCsr_cases (r := effMtsr c rs1 w s) rfl with ⟨hp, h⟩ | ⟨_, h⟩ <;> rw [h]
  · refine .writesCsr c _ (fun h => ⟨rs1, origin h, rfl⟩) ?_ flags
    rcases allowed with hc | hw
    · exact .inl hc
    · rcases hp with hc | hp
      · exact .inl hc
      · exact .inr ⟨hp, hw⟩
  · exact .traps _ (by simp [trapPrivilege]) (by simp [trapPrivilege])

theorem effHalt_shape : EffectShape .halt s (effHalt s) := by
  rcases requireSupervisor_cases (r := effHalt s) rfl with ⟨hp, h⟩ | ⟨_, h⟩ <;> rw [h]
  · exact .halts rfl hp
  · exact .traps _ (by simp [trapPrivilege]) (by simp [trapPrivilege])

theorem effRti_shape : EffectShape .rti s (effRti s) := by
  rcases requireSupervisor_cases (r := effRti s) rfl with ⟨hp, h⟩ | ⟨_, h⟩
  · rcases transfer_cases h.symm with ⟨hc, h'⟩ | ⟨k, _, h'⟩ <;> rw [h']
    · exact .returns rfl hp hc
    · exact .traps _ (by simp [trapMemory]) (by simp [trapMemory])
  · rw [h]; exact .traps _ (by simp [trapPrivilege]) (by simp [trapPrivilege])

/-- Everything any instruction can do. -/
theorem execute_shape (i : Instr) (s : State) : EffectShape i s (execute i s) := by
  cases i with
  | addR | addI | subR | subI | andR | andI | orR | orI | xorR | xorI => exact arith_shape rfl rfl
  | shlR | shlI | shrR | shrI | sarR | sarI | mulR | mulI => exact arith_shape rfl rfl
  | divR | divI | divuR | divuI | remR | remI | remuR | remuI => exact divide_shape rfl rfl
  | cmpR | cmpI | tstR | tstI => exact flagsOnly_shape rfl
  | lui => exact .writesReg _ _ rfl
  | ldbR | ldbI | ldbuR | ldbuI | ldhR | ldhI | ldhuR | ldhuI | ldwR | ldwI => exact load_shape rfl
  | ldba | ldbua | ldha | ldhua | ldwa => exact load_shape rfl
  | stbR | stbI | sthR | sthI | stwR | stwI | stba | stha | stwa => exact store_shape rfl
  | beq | bne | blo | bhs | bmi | bpl | bvs | bvc | bhi | bls | bge | blt | bgt | ble | bal => exact effBcc_shape
  | jal | jalrR | jalrI | jala => exact jumpAndLink_shape rfl
  | halt => exact effHalt_shape
  | swi => exact .traps _ (by simp [trapSoftware]) (by simp [trapSoftware])
  | rti => exact effRti_shape
  | mfsrStatus | mfsrCause | mfsrEaddr | mfsrEpc | mfsrEflags | mfsrFlags | mfsrIpend => exact effMfsr_shape rfl
  | mtsrStatus => exact effMtsr_shape (fun _ => rfl) (.inr rfl) (by simp)
  | mtsrCause | mtsrEaddr | mtsrEpc | mtsrEflags => exact effMtsr_shape (by simp) (.inr rfl) (by simp)
  | mtsrFlags => exact effMtsr_shape (by simp) (.inl rfl) fun _ => rfl
  | nop => exact .writesNothing

/-- The next state of an instruction. -/
theorem exec_next {t : State} (h : exec i s = .next t) : t = (applyEffect (execute i s)).1 := by
  rw [exec_eq_execute] at h
  injection h with h
  exact h.symm

/-- The three outcomes of a synchronous trap, as states. -/
theorem takeSync_state (tr : Trap) (s : State) :
    (takeSync tr s).1 = (haltWith (.doubleFault tr) s).1 ∨ (takeSync tr s).1 = (haltWith (.unhandled tr) s).1 ∨
    ∃ h, VectorTable.handler s.cfg.vectors tr.cause = some h ∧ (takeSync tr s).1 = enterHandler tr s.pc h s := by
  rcases takeSync_cases (t := tr) (s := s) rfl with ⟨_, _, h, _⟩ | ⟨_, h⟩
  · exact .inl h
  · rcases vectorTrap_cases h with ⟨_, h, _⟩ | ⟨a, ha, h, _⟩
    · exact .inr (.inl h)
    · exact .inr (.inr ⟨a, ha, h⟩)

/-- What trap entry leaves, in the statements' terms. -/
theorem enterHandler_entered (tr : Trap) (epc h : Word) (s : State) :
    HandlerEntered tr.causeWord tr.value epc h s (enterHandler tr epc h s) := by
  constructor <;> try first | rfl | (intro x; rfl)
  all_goals
    simp only [enterHandler_eflags, Flags.bits]
    cases s.flags.c <;> cases s.flags.z <;> cases s.flags.n <;> cases s.flags.v <;> rfl

/-- A synchronous trap, in the statements' terms. -/
theorem takeSync_taken {tr : Trap} (s : State) (h : tr.cause ≠ .externalInterrupt) :
    TrapTaken tr tr.causeWord s (takeSync tr s).1 := by
  unfold TrapTaken takeSync
  split
  · rfl
  · unfold vectorTrap
    cases VectorTable.handler s.cfg.vectors tr.cause with
    | none => rfl
    | some a => exact ⟨enterHandler_entered tr s.pc a s, by simp [h]⟩

end Sys2Proof.Machine
end

