-- ==== Sys2Proof/Laws/Encoding.lean ====
section
/-! SUPPORT. The fields of a word of each format are the fields it was made of, and the fixed bits of each format are what the opcode
table says. -/

namespace Sys2Proof

@[simp] theorem fieldOp_formatR (op : BitVec 6) (rd rs1 rs2 : RegIdx) : fieldOp (formatR op rd rs1 rs2) = op := by
  unfold fieldOp formatR
  apply BitVec.eq_of_getLsbD_eq
  intro i hi
  interval_cases i <;> simp [place]

@[simp] theorem fieldRd_formatR (op : BitVec 6) (rd rs1 rs2 : RegIdx) : fieldRd (formatR op rd rs1 rs2) = rd := by
  unfold fieldRd formatR
  apply BitVec.eq_of_getLsbD_eq
  intro i hi
  interval_cases i <;> simp [place]

@[simp] theorem fieldRs1_formatR (op : BitVec 6) (rd rs1 rs2 : RegIdx) : fieldRs1 (formatR op rd rs1 rs2) = rs1 := by
  unfold fieldRs1 formatR
  apply BitVec.eq_of_getLsbD_eq
  intro i hi
  interval_cases i <;> simp [place]

@[simp] theorem fieldRs2_formatR (op : BitVec 6) (rd rs1 rs2 : RegIdx) : fieldRs2 (formatR op rd rs1 rs2) = rs2 := by
  unfold fieldRs2 formatR
  apply BitVec.eq_of_getLsbD_eq
  intro i hi
  interval_cases i <;> simp [place]

@[simp] theorem fieldLow10_formatR (op : BitVec 6) (rd rs1 rs2 : RegIdx) : fieldLow10 (formatR op rd rs1 rs2) = 0#10 := by
  unfold fieldLow10 formatR
  apply BitVec.eq_of_getLsbD_eq
  intro i hi
  interval_cases i <;> simp [place]

@[simp] theorem fieldOp_formatI (op : BitVec 6) (rd rs1 : RegIdx) (imm15 : BitVec 15) : fieldOp (formatI op rd rs1 imm15) = op := by
  unfold fieldOp formatI
  apply BitVec.eq_of_getLsbD_eq
  intro i hi
  interval_cases i <;> simp [place]

@[simp] theorem fieldRd_formatI (op : BitVec 6) (rd rs1 : RegIdx) (imm15 : BitVec 15) : fieldRd (formatI op rd rs1 imm15) = rd := by
  unfold fieldRd formatI
  apply BitVec.eq_of_getLsbD_eq
  intro i hi
  interval_cases i <;> simp [place]

@[simp] theorem fieldRs1_formatI (op : BitVec 6) (rd rs1 : RegIdx) (imm15 : BitVec 15) : fieldRs1 (formatI op rd rs1 imm15) = rs1 := by
  unfold fieldRs1 formatI
  apply BitVec.eq_of_getLsbD_eq
  intro i hi
  interval_cases i <;> simp [place]

@[simp] theorem fieldImm15_formatI (op : BitVec 6) (rd rs1 : RegIdx) (imm15 : BitVec 15) : fieldImm15 (formatI op rd rs1 imm15) = imm15 := by
  unfold fieldImm15 formatI
  apply BitVec.eq_of_getLsbD_eq
  intro i hi
  interval_cases i <;> simp [place]

@[simp] theorem fieldOp_formatU (op : BitVec 6) (rd : RegIdx) (imm21 : BitVec 21) : fieldOp (formatU op rd imm21) = op := by
  unfold fieldOp formatU
  apply BitVec.eq_of_getLsbD_eq
  intro i hi
  interval_cases i <;> simp [place]

@[simp] theorem fieldRd_formatU (op : BitVec 6) (rd : RegIdx) (imm21 : BitVec 21) : fieldRd (formatU op rd imm21) = rd := by
  unfold fieldRd formatU
  apply BitVec.eq_of_getLsbD_eq
  intro i hi
  interval_cases i <;> simp [place]

@[simp] theorem fieldImm21_formatU (op : BitVec 6) (rd : RegIdx) (imm21 : BitVec 21) : fieldImm21 (formatU op rd imm21) = imm21 := by
  unfold fieldImm21 formatU
  apply BitVec.eq_of_getLsbD_eq
  intro i hi
  interval_cases i <;> simp [place]

@[simp] theorem fieldOp_formatB (op : BitVec 6) (cond : BitVec 4) (imm22 : BitVec 22) : fieldOp (formatB op cond imm22) = op := by
  unfold fieldOp formatB
  apply BitVec.eq_of_getLsbD_eq
  intro i hi
  interval_cases i <;> simp [place]

@[simp] theorem fieldCond_formatB (op : BitVec 6) (cond : BitVec 4) (imm22 : BitVec 22) : fieldCond (formatB op cond imm22) = cond := by
  unfold fieldCond formatB
  apply BitVec.eq_of_getLsbD_eq
  intro i hi
  interval_cases i <;> simp [place]

@[simp] theorem fieldImm22_formatB (op : BitVec 6) (cond : BitVec 4) (imm22 : BitVec 22) : fieldImm22 (formatB op cond imm22) = imm22 := by
  unfold fieldImm22 formatB
  apply BitVec.eq_of_getLsbD_eq
  intro i hi
  interval_cases i <;> simp [place]

@[simp] theorem fieldOp_formatS (op : BitVec 6) : fieldOp (formatS op) = op := by
  unfold fieldOp formatS
  apply BitVec.eq_of_getLsbD_eq
  intro i hi
  interval_cases i <;> simp [place]

@[simp] theorem fieldLow26_formatS (op : BitVec 6) : fieldLow26 (formatS op) = 0#26 := by
  unfold fieldLow26 formatS
  apply BitVec.eq_of_getLsbD_eq
  intro i hi
  interval_cases i <;> simp [place]

@[simp] theorem fieldM_formatR (op : BitVec 6) (rd rs1 rs2 : RegIdx) : fieldM (formatR op rd rs1 rs2) = false := by
  simp [fieldM, formatR, place]

@[simp] theorem fieldM_formatI (op : BitVec 6) (rd rs1 : RegIdx) (imm15 : BitVec 15) :
    fieldM (formatI op rd rs1 imm15) = true := by
  simp [fieldM, formatI, place]

/-! ### The fixed bits of each format (spec/opcode_table.json, mask and match) -/

theorem formatR_and_mask (op : BitVec 6) (rd rs1 rs2 : RegIdx) :
    formatR op rd rs1 rs2 &&& 0xFC0083FF#32 = formatR op 0#5 0#5 0#5 := by
  apply BitVec.eq_of_getLsbD_eq
  intro i hi
  interval_cases i <;> simp [formatR, place]

theorem formatR_and_mask_rd (op : BitVec 6) (rs1 rs2 : RegIdx) :
    formatR op 0#5 rs1 rs2 &&& 0xFFE083FF#32 = formatR op 0#5 0#5 0#5 := by
  apply BitVec.eq_of_getLsbD_eq
  intro i hi
  interval_cases i <;> simp [formatR, place]

theorem formatI_and_mask (op : BitVec 6) (rd rs1 : RegIdx) (imm15 : BitVec 15) :
    formatI op rd rs1 imm15 &&& 0xFC008000#32 = formatI op 0#5 0#5 0#15 := by
  apply BitVec.eq_of_getLsbD_eq
  intro i hi
  interval_cases i <;> simp [formatI, place]

theorem formatI_and_mask_rd (op : BitVec 6) (rs1 : RegIdx) (imm15 : BitVec 15) :
    formatI op 0#5 rs1 imm15 &&& 0xFFE08000#32 = formatI op 0#5 0#5 0#15 := by
  apply BitVec.eq_of_getLsbD_eq
  intro i hi
  interval_cases i <;> simp [formatI, place]

theorem formatI_and_mask_swi (op : BitVec 6) (imm15 : BitVec 15) :
    formatI op 0#5 0#5 imm15 &&& 0xFFFF8000#32 = formatI op 0#5 0#5 0#15 := by
  apply BitVec.eq_of_getLsbD_eq
  intro i hi
  interval_cases i <;> simp [formatI, place]

theorem formatI_and_mask_mfsr (op : BitVec 6) (rd : RegIdx) (csr : BitVec 15) :
    formatI op rd 0#5 csr &&& 0xFC1FFFFF#32 = formatI op 0#5 0#5 csr := by
  apply BitVec.eq_of_getLsbD_eq
  intro i hi
  interval_cases i <;> simp [formatI, place]

theorem formatI_and_mask_mtsr (op : BitVec 6) (rs1 : RegIdx) (csr : BitVec 15) :
    formatI op 0#5 rs1 csr &&& 0xFFE0FFFF#32 = formatI op 0#5 0#5 csr := by
  apply BitVec.eq_of_getLsbD_eq
  intro i hi
  interval_cases i <;> simp [formatI, place]

theorem formatU_and_mask (op : BitVec 6) (rd : RegIdx) (imm21 : BitVec 21) :
    formatU op rd imm21 &&& 0xFC000000#32 = formatU op 0#5 0#21 := by
  apply BitVec.eq_of_getLsbD_eq
  intro i hi
  interval_cases i <;> simp [formatU, place]

theorem formatB_and_mask (op : BitVec 6) (cond : BitVec 4) (imm22 : BitVec 22) :
    formatB op cond imm22 &&& 0xFFC00000#32 = formatB op cond 0#22 := by
  apply BitVec.eq_of_getLsbD_eq
  intro i hi
  interval_cases i <;> simp [formatB, place]

end Sys2Proof
end

