-- ==== Sys2Proof/Laws/Memory.lean ====
section
/-! SUPPORT. The memory image: what a byte reads as after a write, the canonical form kept by every operation, and the little-endian
reads and writes of several bytes. -/

namespace Sys2Proof.Machine

theorem Memory.read_of_wfFrom_le {cap lo a : Nat} {m : Memory} (h : Memory.wfFrom cap (some lo) m = true) (ha : a ≤ lo) :
    Memory.read m a = 0x00#8 := by
  induction m generalizing lo with
  | nil => rfl
  | cons e m ih =>
    obtain ⟨a', b⟩ := e
    simp only [Memory.wfFrom, aboveFloor, Bool.and_eq_true, decide_eq_true_eq] at h
    have hne : a ≠ a' := by omega
    simp only [Memory.read, hne, if_false]
    exact ih h.2 (by omega)

/-- A write leaves every other address alone, in any list. -/
theorem Memory.read_write_of_ne (m : Memory) {a a' : Nat} (b : Byte) (h : a' ≠ a) :
    Memory.read (Memory.write m a b) a' = Memory.read m a' := by
  induction m with
  | nil => unfold Memory.write; split <;> simp [Memory.read, h]
  | cons e m ih =>
    obtain ⟨x, y⟩ := e
    unfold Memory.write
    split
    · split <;> simp [Memory.read, h]
    · split
      · subst_vars
        split <;> simp [Memory.read, h]
      · simp only [Memory.read, ih]

theorem Memory.read_write_same_from {cap : Nat} {lo : Option Nat} {m : Memory} (h : Memory.wfFrom cap lo m = true) (a : Nat)
    (b : Byte) : Memory.read (Memory.write m a b) a = b := by
  induction m generalizing lo with
  | nil => unfold Memory.write; split <;> simp_all [Memory.read]
  | cons e m ih =>
    obtain ⟨x, y⟩ := e
    simp only [Memory.wfFrom, Bool.and_eq_true, decide_eq_true_eq] at h
    unfold Memory.write
    split
    · rename_i hlt
      have hne : a ≠ x := by omega
      split
      · rename_i hb
        simp only [Memory.read, hne, if_false, hb]
        exact Memory.read_of_wfFrom_le h.2 (by omega)
      · simp [Memory.read]
    · split
      · rename_i hax
        split
        · rename_i hb
          rw [hb]
          exact Memory.read_of_wfFrom_le h.2 (by omega)
        · simp [Memory.read]
      · rename_i hne
        simp only [Memory.read, hne, if_false]
        exact ih h.2

/-- In the canonical form a byte reads as the last value written to it. -/
theorem Memory.read_write_same {cap : Nat} {m : Memory} (h : Memory.wf cap m = true) (a : Nat) (b : Byte) :
    Memory.read (Memory.write m a b) a = b := Memory.read_write_same_from h a b

theorem Memory.wfFrom_weaken {cap lo : Nat} {lo' : Option Nat} {m : Memory} (h : Memory.wfFrom cap (some lo) m = true)
    (hlo : ∀ l, lo' = some l → l ≤ lo) : Memory.wfFrom cap lo' m = true := by
  cases m with
  | nil => rfl
  | cons e m =>
    obtain ⟨x, y⟩ := e
    simp only [Memory.wfFrom, Bool.and_eq_true, decide_eq_true_eq] at h ⊢
    have hx : lo < x := by simpa [aboveFloor] using h.1.1.1
    refine ⟨⟨⟨?_, h.1.1.2⟩, h.1.2⟩, h.2⟩
    cases lo' with
    | none => rfl
    | some l => simpa [aboveFloor] using Nat.lt_of_le_of_lt (hlo l rfl) hx

theorem Memory.wfFrom_write {cap : Nat} {lo : Option Nat} {m : Memory} (h : Memory.wfFrom cap lo m = true) {a : Nat}
    (b : Byte) (ha : a < cap) (hlo : aboveFloor lo a = true) : Memory.wfFrom cap lo (Memory.write m a b) = true := by
  induction m generalizing lo with
  | nil =>
    unfold Memory.write
    split
    · rfl
    · simp_all [Memory.wfFrom]
  | cons e m ih =>
    obtain ⟨x, y⟩ := e
    have h0 := h
    simp only [Memory.wfFrom, Bool.and_eq_true, decide_eq_true_eq] at h
    unfold Memory.write
    split
    · rename_i hlt
      split
      · exact h0
      · rename_i hb
        simp only [Memory.wfFrom, Bool.and_eq_true, decide_eq_true_eq]
        exact ⟨⟨⟨hlo, ha⟩, hb⟩, ⟨⟨by simpa [aboveFloor] using hlt, h.1.1.2⟩, h.1.2⟩, h.2⟩
    · split
      · rename_i hax
        subst hax
        split
        · refine Memory.wfFrom_weaken h.2 fun l hl => ?_
          subst hl
          exact Nat.le_of_lt (by simpa [aboveFloor] using hlo)
        · rename_i hb
          simp only [Memory.wfFrom, Bool.and_eq_true, decide_eq_true_eq]
          exact ⟨⟨⟨hlo, ha⟩, hb⟩, h.2⟩
      · rename_i h1 h2
        simp only [Memory.wfFrom, Bool.and_eq_true, decide_eq_true_eq]
        have hxa : x < a := by omega
        exact ⟨⟨⟨h.1.1.1, h.1.1.2⟩, h.1.2⟩, ih h.2 (by simpa [aboveFloor] using hxa)⟩

/-- A write of one byte inside the capacity keeps the canonical form. -/
theorem Memory.wf_write {cap : Nat} {m : Memory} (h : Memory.wf cap m = true) {a : Nat} (b : Byte) (ha : a < cap) :
    Memory.wf cap (Memory.write m a b) = true := Memory.wfFrom_write h b ha rfl

/-- A write of `n` bytes inside the capacity keeps the canonical form. -/
theorem Memory.wf_writeLE {cap n : Nat} : ∀ {m : Memory} {a : Nat} (v : Word), Memory.wf cap m = true → a + n ≤ cap →
    Memory.wf cap (Memory.writeLE m a n v) = true := by
  induction n with
  | zero => intro m a v h _; exact h
  | succ n ih =>
    intro m a v h ha
    exact ih (v >>> 8) (Memory.wf_write h _ (by omega)) (by omega)

/-- A byte sequence written inside the capacity keeps the canonical form. -/
theorem Memory.wf_writeBytes {cap : Nat} {bs : List Byte} : ∀ {m : Memory} {a : Nat}, Memory.wf cap m = true →
    a + bs.length ≤ cap → Memory.wf cap (Memory.writeBytes m a bs) = true := by
  induction bs with
  | nil => intro m a h _; exact h
  | cons b bs ih =>
    intro m a h ha
    simp only [List.length_cons] at ha
    exact ih (Memory.wf_write h _ (by omega)) (by omega)

/-- A write of `n` bytes at `a` leaves every address outside `a .. a + n - 1` alone. -/
theorem Memory.read_writeLE_of_outside {n a' : Nat} : ∀ (m : Memory) (a : Nat) (v : Word), a' < a ∨ a + n ≤ a' →
    Memory.read (Memory.writeLE m a n v) a' = Memory.read m a' := by
  induction n with
  | zero => intro m a v _; rfl
  | succ n ih =>
    intro m a v h
    unfold Memory.writeLE
    rw [ih _ _ _ (by omega), Memory.read_write_of_ne _ _ (by omega)]

/-- In the canonical form, byte `k` of a write of `n` bytes reads as byte `k` of the value. -/
theorem Memory.read_writeLE_inside {cap n k : Nat} : ∀ {m : Memory} {a : Nat} (v : Word), Memory.wf cap m = true →
    a + n ≤ cap → k < n → Memory.read (Memory.writeLE m a n v) (a + k) = v.extractLsb' (8 * k) 8 := by
  induction n generalizing k with
  | zero => intro m a v _ _ hk; omega
  | succ n ih =>
    intro m a v h ha hk
    unfold Memory.writeLE
    cases k with
    | zero =>
      rw [Memory.read_writeLE_of_outside _ _ _ (by omega)]
      exact Memory.read_write_same h _ _
    | succ k =>
      have hw := Memory.wf_write h (v.extractLsb' 0 8) (show a < cap by omega)
      have := ih (k := k) (a := a + 1) (v >>> 8) hw (by omega) (by omega)
      rw [show a + (k + 1) = a + 1 + k by omega, this]
      apply BitVec.eq_of_getLsbD_eq
      intro i hi
      simp [hi]
      congr 1
      omega

/-- A byte sequence written at `a` leaves every address outside it alone. -/
theorem Memory.read_writeBytes_of_outside {a' : Nat} {bs : List Byte} : ∀ (m : Memory) (a : Nat),
    a' < a ∨ a + bs.length ≤ a' → Memory.read (Memory.writeBytes m a bs) a' = Memory.read m a' := by
  induction bs with
  | nil => intro m a _; rfl
  | cons b bs ih =>
    intro m a h
    simp only [List.length_cons] at h
    unfold Memory.writeBytes
    rw [ih _ _ (by omega), Memory.read_write_of_ne _ _ (by omega)]

/-- In the canonical form, the bytes of a sequence written at `a` are read back. -/
theorem Memory.read_writeBytes_inside {cap k : Nat} {bs : List Byte} : ∀ {m : Memory} {a : Nat}, Memory.wf cap m = true →
    a + bs.length ≤ cap → (hk : k < bs.length) → Memory.read (Memory.writeBytes m a bs) (a + k) = bs[k] := by
  induction bs generalizing k with
  | nil => intro m a _ _ hk; simp at hk
  | cons b bs ih =>
    intro m a h ha hk
    simp only [List.length_cons] at ha hk
    unfold Memory.writeBytes
    cases k with
    | zero =>
      rw [Memory.read_writeBytes_of_outside _ _ (by omega)]
      exact Memory.read_write_same h _ _
    | succ k =>
      rw [show a + (k + 1) = a + 1 + k by omega]
      exact ih (Memory.wf_write h b (by omega)) (by omega) (by omega)

/-- A read of one byte. -/
theorem Memory.readLE_one (m : Memory) (a : Nat) : Memory.readLE m a 1 = (Memory.read m a).setWidth 32 := by
  simp [Memory.readLE]

/-- A read of two bytes, the lower address least significant. -/
theorem Memory.readLE_two (m : Memory) (a : Nat) :
    Memory.readLE m a 2 = (Memory.read m (a + 1) ++ Memory.read m a).setWidth 32 := by
  apply BitVec.eq_of_getLsbD_eq
  intro i hi
  simp only [Memory.readLE, BitVec.getLsbD_or, BitVec.getLsbD_setWidth, BitVec.getLsbD_shiftLeft, BitVec.getLsbD_append]
  by_cases h8 : i < 8
  · simp [h8, hi]
  · have := BitVec.getLsbD_of_ge (Memory.read m a) i (by omega)
    simp [h8, hi, this]
    omega

/-- A read of four bytes is the word they make, the lowest address least significant. -/
theorem Memory.readLE_four (m : Memory) (a : Nat) :
    Memory.readLE m a 4 = wordOfBytes (Memory.read m a) (Memory.read m (a + 1)) (Memory.read m (a + 2)) (Memory.read m (a + 3)) := by
  apply BitVec.eq_of_getLsbD_eq
  intro i hi
  simp only [Memory.readLE, wordOfBytes]
  interval_cases i <;> simp

end Sys2Proof.Machine
end

