-- ==== Sys2Proof/Laws/PerInstr.lean ====
section
/-! SUPPORT. Statements for all instructions, one lemma for each constructor of `Instr`. -/

namespace Sys2Proof.Laws

/-- The match and the mask of the instruction's row in spec/opcode_table.json. -/
def tableRow : Instr → Word × Word
  | .addR _ _ _ => (0x00000000#32, 0xFC0083FF#32)
  | .addI _ _ _ => (0x00008000#32, 0xFC008000#32)
  | .subR _ _ _ => (0x04000000#32, 0xFC0083FF#32)
  | .subI _ _ _ => (0x04008000#32, 0xFC008000#32)
  | .andR _ _ _ => (0x08000000#32, 0xFC0083FF#32)
  | .andI _ _ _ => (0x08008000#32, 0xFC008000#32)
  | .orR _ _ _ => (0x0C000000#32, 0xFC0083FF#32)
  | .orI _ _ _ => (0x0C008000#32, 0xFC008000#32)
  | .xorR _ _ _ => (0x10000000#32, 0xFC0083FF#32)
  | .xorI _ _ _ => (0x10008000#32, 0xFC008000#32)
  | .shlR _ _ _ => (0x14000000#32, 0xFC0083FF#32)
  | .shlI _ _ _ => (0x14008000#32, 0xFC008000#32)
  | .shrR _ _ _ => (0x18000000#32, 0xFC0083FF#32)
  | .shrI _ _ _ => (0x18008000#32, 0xFC008000#32)
  | .sarR _ _ _ => (0x1C000000#32, 0xFC0083FF#32)
  | .sarI _ _ _ => (0x1C008000#32, 0xFC008000#32)
  | .mulR _ _ _ => (0x20000000#32, 0xFC0083FF#32)
  | .mulI _ _ _ => (0x20008000#32, 0xFC008000#32)
  | .divR _ _ _ => (0x24000000#32, 0xFC0083FF#32)
  | .divI _ _ _ => (0x24008000#32, 0xFC008000#32)
  | .divuR _ _ _ => (0x28000000#32, 0xFC0083FF#32)
  | .divuI _ _ _ => (0x28008000#32, 0xFC008000#32)
  | .remR _ _ _ => (0x2C000000#32, 0xFC0083FF#32)
  | .remI _ _ _ => (0x2C008000#32, 0xFC008000#32)
  | .remuR _ _ _ => (0x30000000#32, 0xFC0083FF#32)
  | .remuI _ _ _ => (0x30008000#32, 0xFC008000#32)
  | .cmpR _ _ => (0x34000000#32, 0xFFE083FF#32)
  | .cmpI _ _ => (0x34008000#32, 0xFFE08000#32)
  | .tstR _ _ => (0x38000000#32, 0xFFE083FF#32)
  | .tstI _ _ => (0x38008000#32, 0xFFE08000#32)
  | .lui _ _ => (0x3C000000#32, 0xFC000000#32)
  | .ldbR _ _ _ => (0x40000000#32, 0xFC0083FF#32)
  | .ldbI _ _ _ => (0x40008000#32, 0xFC008000#32)
  | .ldbuR _ _ _ => (0x44000000#32, 0xFC0083FF#32)
  | .ldbuI _ _ _ => (0x44008000#32, 0xFC008000#32)
  | .ldhR _ _ _ => (0x48000000#32, 0xFC0083FF#32)
  | .ldhI _ _ _ => (0x48008000#32, 0xFC008000#32)
  | .ldhuR _ _ _ => (0x4C000000#32, 0xFC0083FF#32)
  | .ldhuI _ _ _ => (0x4C008000#32, 0xFC008000#32)
  | .ldwR _ _ _ => (0x50000000#32, 0xFC0083FF#32)
  | .ldwI _ _ _ => (0x50008000#32, 0xFC008000#32)
  | .stbR _ _ _ => (0x54000000#32, 0xFC0083FF#32)
  | .stbI _ _ _ => (0x54008000#32, 0xFC008000#32)
  | .sthR _ _ _ => (0x58000000#32, 0xFC0083FF#32)
  | .sthI _ _ _ => (0x58008000#32, 0xFC008000#32)
  | .stwR _ _ _ => (0x5C000000#32, 0xFC0083FF#32)
  | .stwI _ _ _ => (0x5C008000#32, 0xFC008000#32)
  | .ldba _ _ => (0x60000000#32, 0xFC000000#32)
  | .ldbua _ _ => (0x64000000#32, 0xFC000000#32)
  | .ldha _ _ => (0x68000000#32, 0xFC000000#32)
  | .ldhua _ _ => (0x6C000000#32, 0xFC000000#32)
  | .ldwa _ _ => (0x70000000#32, 0xFC000000#32)
  | .stba _ _ => (0x74000000#32, 0xFC000000#32)
  | .stha _ _ => (0x78000000#32, 0xFC000000#32)
  | .stwa _ _ => (0x7C000000#32, 0xFC000000#32)
  | .beq _ => (0x80000000#32, 0xFFC00000#32)
  | .bne _ => (0x80400000#32, 0xFFC00000#32)
  | .blo _ => (0x80800000#32, 0xFFC00000#32)
  | .bhs _ => (0x80C00000#32, 0xFFC00000#32)
  | .bmi _ => (0x81000000#32, 0xFFC00000#32)
  | .bpl _ => (0x81400000#32, 0xFFC00000#32)
  | .bvs _ => (0x81800000#32, 0xFFC00000#32)
  | .bvc _ => (0x81C00000#32, 0xFFC00000#32)
  | .bhi _ => (0x82000000#32, 0xFFC00000#32)
  | .bls _ => (0x82400000#32, 0xFFC00000#32)
  | .bge _ => (0x82800000#32, 0xFFC00000#32)
  | .blt _ => (0x82C00000#32, 0xFFC00000#32)
  | .bgt _ => (0x83000000#32, 0xFFC00000#32)
  | .ble _ => (0x83400000#32, 0xFFC00000#32)
  | .bal _ => (0x83800000#32, 0xFFC00000#32)
  | .jal _ _ => (0x84000000#32, 0xFC000000#32)
  | .jalrR _ _ _ => (0x88000000#32, 0xFC0083FF#32)
  | .jalrI _ _ _ => (0x88008000#32, 0xFC008000#32)
  | .jala _ _ => (0x8C000000#32, 0xFC000000#32)
  | .halt => (0xC0000000#32, 0xFFFFFFFF#32)
  | .swi _ => (0xC4008000#32, 0xFFFF8000#32)
  | .rti => (0xC8000000#32, 0xFFFFFFFF#32)
  | .mfsrStatus _ => (0xCC008000#32, 0xFC1FFFFF#32)
  | .mfsrCause _ => (0xCC008001#32, 0xFC1FFFFF#32)
  | .mfsrEaddr _ => (0xCC008002#32, 0xFC1FFFFF#32)
  | .mfsrEpc _ => (0xCC008003#32, 0xFC1FFFFF#32)
  | .mfsrEflags _ => (0xCC008004#32, 0xFC1FFFFF#32)
  | .mfsrFlags _ => (0xCC008005#32, 0xFC1FFFFF#32)
  | .mfsrIpend _ => (0xCC008006#32, 0xFC1FFFFF#32)
  | .mtsrStatus _ => (0xD0008000#32, 0xFFE0FFFF#32)
  | .mtsrCause _ => (0xD0008001#32, 0xFFE0FFFF#32)
  | .mtsrEaddr _ => (0xD0008002#32, 0xFFE0FFFF#32)
  | .mtsrEpc _ => (0xD0008003#32, 0xFFE0FFFF#32)
  | .mtsrEflags _ => (0xD0008004#32, 0xFFE0FFFF#32)
  | .mtsrFlags _ => (0xD0008005#32, 0xFFE0FFFF#32)
  | .nop => (0xD4000000#32, 0xFFFFFFFF#32)

/-- The encoder's word has the fixed bits of the instruction's row of the opcode table. -/
def TableRow.Statement (i : Instr) : Prop := encode i &&& (tableRow i).2 = (tableRow i).1

theorem TableRow.addR (rd : RegIdx) (rs1 : RegIdx) (rs2 : RegIdx) : TableRow.Statement (.addR rd rs1 rs2) :=
  formatR_and_mask _ rd rs1 rs2

theorem TableRow.addI (rd : RegIdx) (rs1 : RegIdx) (imm15 : BitVec 15) : TableRow.Statement (.addI rd rs1 imm15) :=
  formatI_and_mask _ rd rs1 imm15

theorem TableRow.subR (rd : RegIdx) (rs1 : RegIdx) (rs2 : RegIdx) : TableRow.Statement (.subR rd rs1 rs2) :=
  formatR_and_mask _ rd rs1 rs2

theorem TableRow.subI (rd : RegIdx) (rs1 : RegIdx) (imm15 : BitVec 15) : TableRow.Statement (.subI rd rs1 imm15) :=
  formatI_and_mask _ rd rs1 imm15

theorem TableRow.andR (rd : RegIdx) (rs1 : RegIdx) (rs2 : RegIdx) : TableRow.Statement (.andR rd rs1 rs2) :=
  formatR_and_mask _ rd rs1 rs2

theorem TableRow.andI (rd : RegIdx) (rs1 : RegIdx) (imm15 : BitVec 15) : TableRow.Statement (.andI rd rs1 imm15) :=
  formatI_and_mask _ rd rs1 imm15

theorem TableRow.orR (rd : RegIdx) (rs1 : RegIdx) (rs2 : RegIdx) : TableRow.Statement (.orR rd rs1 rs2) :=
  formatR_and_mask _ rd rs1 rs2

theorem TableRow.orI (rd : RegIdx) (rs1 : RegIdx) (imm15 : BitVec 15) : TableRow.Statement (.orI rd rs1 imm15) :=
  formatI_and_mask _ rd rs1 imm15

theorem TableRow.xorR (rd : RegIdx) (rs1 : RegIdx) (rs2 : RegIdx) : TableRow.Statement (.xorR rd rs1 rs2) :=
  formatR_and_mask _ rd rs1 rs2

theorem TableRow.xorI (rd : RegIdx) (rs1 : RegIdx) (imm15 : BitVec 15) : TableRow.Statement (.xorI rd rs1 imm15) :=
  formatI_and_mask _ rd rs1 imm15

theorem TableRow.shlR (rd : RegIdx) (rs1 : RegIdx) (rs2 : RegIdx) : TableRow.Statement (.shlR rd rs1 rs2) :=
  formatR_and_mask _ rd rs1 rs2

theorem TableRow.shlI (rd : RegIdx) (rs1 : RegIdx) (imm15 : BitVec 15) : TableRow.Statement (.shlI rd rs1 imm15) :=
  formatI_and_mask _ rd rs1 imm15

theorem TableRow.shrR (rd : RegIdx) (rs1 : RegIdx) (rs2 : RegIdx) : TableRow.Statement (.shrR rd rs1 rs2) :=
  formatR_and_mask _ rd rs1 rs2

theorem TableRow.shrI (rd : RegIdx) (rs1 : RegIdx) (imm15 : BitVec 15) : TableRow.Statement (.shrI rd rs1 imm15) :=
  formatI_and_mask _ rd rs1 imm15

theorem TableRow.sarR (rd : RegIdx) (rs1 : RegIdx) (rs2 : RegIdx) : TableRow.Statement (.sarR rd rs1 rs2) :=
  formatR_and_mask _ rd rs1 rs2

theorem TableRow.sarI (rd : RegIdx) (rs1 : RegIdx) (imm15 : BitVec 15) : TableRow.Statement (.sarI rd rs1 imm15) :=
  formatI_and_mask _ rd rs1 imm15

theorem TableRow.mulR (rd : RegIdx) (rs1 : RegIdx) (rs2 : RegIdx) : TableRow.Statement (.mulR rd rs1 rs2) :=
  formatR_and_mask _ rd rs1 rs2

theorem TableRow.mulI (rd : RegIdx) (rs1 : RegIdx) (imm15 : BitVec 15) : TableRow.Statement (.mulI rd rs1 imm15) :=
  formatI_and_mask _ rd rs1 imm15

theorem TableRow.divR (rd : RegIdx) (rs1 : RegIdx) (rs2 : RegIdx) : TableRow.Statement (.divR rd rs1 rs2) :=
  formatR_and_mask _ rd rs1 rs2

theorem TableRow.divI (rd : RegIdx) (rs1 : RegIdx) (imm15 : BitVec 15) : TableRow.Statement (.divI rd rs1 imm15) :=
  formatI_and_mask _ rd rs1 imm15

theorem TableRow.divuR (rd : RegIdx) (rs1 : RegIdx) (rs2 : RegIdx) : TableRow.Statement (.divuR rd rs1 rs2) :=
  formatR_and_mask _ rd rs1 rs2

theorem TableRow.divuI (rd : RegIdx) (rs1 : RegIdx) (imm15 : BitVec 15) : TableRow.Statement (.divuI rd rs1 imm15) :=
  formatI_and_mask _ rd rs1 imm15

theorem TableRow.remR (rd : RegIdx) (rs1 : RegIdx) (rs2 : RegIdx) : TableRow.Statement (.remR rd rs1 rs2) :=
  formatR_and_mask _ rd rs1 rs2

theorem TableRow.remI (rd : RegIdx) (rs1 : RegIdx) (imm15 : BitVec 15) : TableRow.Statement (.remI rd rs1 imm15) :=
  formatI_and_mask _ rd rs1 imm15

theorem TableRow.remuR (rd : RegIdx) (rs1 : RegIdx) (rs2 : RegIdx) : TableRow.Statement (.remuR rd rs1 rs2) :=
  formatR_and_mask _ rd rs1 rs2

theorem TableRow.remuI (rd : RegIdx) (rs1 : RegIdx) (imm15 : BitVec 15) : TableRow.Statement (.remuI rd rs1 imm15) :=
  formatI_and_mask _ rd rs1 imm15

theorem TableRow.cmpR (rs1 : RegIdx) (rs2 : RegIdx) : TableRow.Statement (.cmpR rs1 rs2) :=
  formatR_and_mask_rd _ rs1 rs2

theorem TableRow.cmpI (rs1 : RegIdx) (imm15 : BitVec 15) : TableRow.Statement (.cmpI rs1 imm15) :=
  formatI_and_mask_rd _ rs1 imm15

theorem TableRow.tstR (rs1 : RegIdx) (rs2 : RegIdx) : TableRow.Statement (.tstR rs1 rs2) :=
  formatR_and_mask_rd _ rs1 rs2

theorem TableRow.tstI (rs1 : RegIdx) (imm15 : BitVec 15) : TableRow.Statement (.tstI rs1 imm15) :=
  formatI_and_mask_rd _ rs1 imm15

theorem TableRow.lui (rd : RegIdx) (imm21 : BitVec 21) : TableRow.Statement (.lui rd imm21) :=
  formatU_and_mask _ rd imm21

theorem TableRow.ldbR (rd : RegIdx) (rs1 : RegIdx) (rs2 : RegIdx) : TableRow.Statement (.ldbR rd rs1 rs2) :=
  formatR_and_mask _ rd rs1 rs2

theorem TableRow.ldbI (rd : RegIdx) (rs1 : RegIdx) (imm15 : BitVec 15) : TableRow.Statement (.ldbI rd rs1 imm15) :=
  formatI_and_mask _ rd rs1 imm15

theorem TableRow.ldbuR (rd : RegIdx) (rs1 : RegIdx) (rs2 : RegIdx) : TableRow.Statement (.ldbuR rd rs1 rs2) :=
  formatR_and_mask _ rd rs1 rs2

theorem TableRow.ldbuI (rd : RegIdx) (rs1 : RegIdx) (imm15 : BitVec 15) : TableRow.Statement (.ldbuI rd rs1 imm15) :=
  formatI_and_mask _ rd rs1 imm15

theorem TableRow.ldhR (rd : RegIdx) (rs1 : RegIdx) (rs2 : RegIdx) : TableRow.Statement (.ldhR rd rs1 rs2) :=
  formatR_and_mask _ rd rs1 rs2

theorem TableRow.ldhI (rd : RegIdx) (rs1 : RegIdx) (imm15 : BitVec 15) : TableRow.Statement (.ldhI rd rs1 imm15) :=
  formatI_and_mask _ rd rs1 imm15

theorem TableRow.ldhuR (rd : RegIdx) (rs1 : RegIdx) (rs2 : RegIdx) : TableRow.Statement (.ldhuR rd rs1 rs2) :=
  formatR_and_mask _ rd rs1 rs2

theorem TableRow.ldhuI (rd : RegIdx) (rs1 : RegIdx) (imm15 : BitVec 15) : TableRow.Statement (.ldhuI rd rs1 imm15) :=
  formatI_and_mask _ rd rs1 imm15

theorem TableRow.ldwR (rd : RegIdx) (rs1 : RegIdx) (rs2 : RegIdx) : TableRow.Statement (.ldwR rd rs1 rs2) :=
  formatR_and_mask _ rd rs1 rs2

theorem TableRow.ldwI (rd : RegIdx) (rs1 : RegIdx) (imm15 : BitVec 15) : TableRow.Statement (.ldwI rd rs1 imm15) :=
  formatI_and_mask _ rd rs1 imm15

theorem TableRow.stbR (rd : RegIdx) (rs1 : RegIdx) (rs2 : RegIdx) : TableRow.Statement (.stbR rd rs1 rs2) :=
  formatR_and_mask _ rd rs1 rs2

theorem TableRow.stbI (rd : RegIdx) (rs1 : RegIdx) (imm15 : BitVec 15) : TableRow.Statement (.stbI rd rs1 imm15) :=
  formatI_and_mask _ rd rs1 imm15

theorem TableRow.sthR (rd : RegIdx) (rs1 : RegIdx) (rs2 : RegIdx) : TableRow.Statement (.sthR rd rs1 rs2) :=
  formatR_and_mask _ rd rs1 rs2

theorem TableRow.sthI (rd : RegIdx) (rs1 : RegIdx) (imm15 : BitVec 15) : TableRow.Statement (.sthI rd rs1 imm15) :=
  formatI_and_mask _ rd rs1 imm15

theorem TableRow.stwR (rd : RegIdx) (rs1 : RegIdx) (rs2 : RegIdx) : TableRow.Statement (.stwR rd rs1 rs2) :=
  formatR_and_mask _ rd rs1 rs2

theorem TableRow.stwI (rd : RegIdx) (rs1 : RegIdx) (imm15 : BitVec 15) : TableRow.Statement (.stwI rd rs1 imm15) :=
  formatI_and_mask _ rd rs1 imm15

theorem TableRow.ldba (rd : RegIdx) (imm21 : BitVec 21) : TableRow.Statement (.ldba rd imm21) :=
  formatU_and_mask _ rd imm21

theorem TableRow.ldbua (rd : RegIdx) (imm21 : BitVec 21) : TableRow.Statement (.ldbua rd imm21) :=
  formatU_and_mask _ rd imm21

theorem TableRow.ldha (rd : RegIdx) (imm21 : BitVec 21) : TableRow.Statement (.ldha rd imm21) :=
  formatU_and_mask _ rd imm21

theorem TableRow.ldhua (rd : RegIdx) (imm21 : BitVec 21) : TableRow.Statement (.ldhua rd imm21) :=
  formatU_and_mask _ rd imm21

theorem TableRow.ldwa (rd : RegIdx) (imm21 : BitVec 21) : TableRow.Statement (.ldwa rd imm21) :=
  formatU_and_mask _ rd imm21

theorem TableRow.stba (rd : RegIdx) (imm21 : BitVec 21) : TableRow.Statement (.stba rd imm21) :=
  formatU_and_mask _ rd imm21

theorem TableRow.stha (rd : RegIdx) (imm21 : BitVec 21) : TableRow.Statement (.stha rd imm21) :=
  formatU_and_mask _ rd imm21

theorem TableRow.stwa (rd : RegIdx) (imm21 : BitVec 21) : TableRow.Statement (.stwa rd imm21) :=
  formatU_and_mask _ rd imm21

theorem TableRow.beq (imm22 : BitVec 22) : TableRow.Statement (.beq imm22) :=
  formatB_and_mask _ _ imm22

theorem TableRow.bne (imm22 : BitVec 22) : TableRow.Statement (.bne imm22) :=
  formatB_and_mask _ _ imm22

theorem TableRow.blo (imm22 : BitVec 22) : TableRow.Statement (.blo imm22) :=
  formatB_and_mask _ _ imm22

theorem TableRow.bhs (imm22 : BitVec 22) : TableRow.Statement (.bhs imm22) :=
  formatB_and_mask _ _ imm22

theorem TableRow.bmi (imm22 : BitVec 22) : TableRow.Statement (.bmi imm22) :=
  formatB_and_mask _ _ imm22

theorem TableRow.bpl (imm22 : BitVec 22) : TableRow.Statement (.bpl imm22) :=
  formatB_and_mask _ _ imm22

theorem TableRow.bvs (imm22 : BitVec 22) : TableRow.Statement (.bvs imm22) :=
  formatB_and_mask _ _ imm22

theorem TableRow.bvc (imm22 : BitVec 22) : TableRow.Statement (.bvc imm22) :=
  formatB_and_mask _ _ imm22

theorem TableRow.bhi (imm22 : BitVec 22) : TableRow.Statement (.bhi imm22) :=
  formatB_and_mask _ _ imm22

theorem TableRow.bls (imm22 : BitVec 22) : TableRow.Statement (.bls imm22) :=
  formatB_and_mask _ _ imm22

theorem TableRow.bge (imm22 : BitVec 22) : TableRow.Statement (.bge imm22) :=
  formatB_and_mask _ _ imm22

theorem TableRow.blt (imm22 : BitVec 22) : TableRow.Statement (.blt imm22) :=
  formatB_and_mask _ _ imm22

theorem TableRow.bgt (imm22 : BitVec 22) : TableRow.Statement (.bgt imm22) :=
  formatB_and_mask _ _ imm22

theorem TableRow.ble (imm22 : BitVec 22) : TableRow.Statement (.ble imm22) :=
  formatB_and_mask _ _ imm22

theorem TableRow.bal (imm22 : BitVec 22) : TableRow.Statement (.bal imm22) :=
  formatB_and_mask _ _ imm22

theorem TableRow.jal (rd : RegIdx) (imm21 : BitVec 21) : TableRow.Statement (.jal rd imm21) :=
  formatU_and_mask _ rd imm21

theorem TableRow.jalrR (rd : RegIdx) (rs1 : RegIdx) (rs2 : RegIdx) : TableRow.Statement (.jalrR rd rs1 rs2) :=
  formatR_and_mask _ rd rs1 rs2

theorem TableRow.jalrI (rd : RegIdx) (rs1 : RegIdx) (imm15 : BitVec 15) : TableRow.Statement (.jalrI rd rs1 imm15) :=
  formatI_and_mask _ rd rs1 imm15

theorem TableRow.jala (rd : RegIdx) (imm21 : BitVec 21) : TableRow.Statement (.jala rd imm21) :=
  formatU_and_mask _ rd imm21

theorem TableRow.halt : TableRow.Statement (.halt) := rfl

theorem TableRow.swi (imm15 : BitVec 15) : TableRow.Statement (.swi imm15) :=
  formatI_and_mask_swi _ imm15

theorem TableRow.rti : TableRow.Statement (.rti) := rfl

theorem TableRow.mfsrStatus (rd : RegIdx) : TableRow.Statement (.mfsrStatus rd) :=
  formatI_and_mask_mfsr _ rd _

theorem TableRow.mfsrCause (rd : RegIdx) : TableRow.Statement (.mfsrCause rd) :=
  formatI_and_mask_mfsr _ rd _

theorem TableRow.mfsrEaddr (rd : RegIdx) : TableRow.Statement (.mfsrEaddr rd) :=
  formatI_and_mask_mfsr _ rd _

theorem TableRow.mfsrEpc (rd : RegIdx) : TableRow.Statement (.mfsrEpc rd) :=
  formatI_and_mask_mfsr _ rd _

theorem TableRow.mfsrEflags (rd : RegIdx) : TableRow.Statement (.mfsrEflags rd) :=
  formatI_and_mask_mfsr _ rd _

theorem TableRow.mfsrFlags (rd : RegIdx) : TableRow.Statement (.mfsrFlags rd) :=
  formatI_and_mask_mfsr _ rd _

theorem TableRow.mfsrIpend (rd : RegIdx) : TableRow.Statement (.mfsrIpend rd) :=
  formatI_and_mask_mfsr _ rd _

theorem TableRow.mtsrStatus (rs1 : RegIdx) : TableRow.Statement (.mtsrStatus rs1) :=
  formatI_and_mask_mtsr _ rs1 _

theorem TableRow.mtsrCause (rs1 : RegIdx) : TableRow.Statement (.mtsrCause rs1) :=
  formatI_and_mask_mtsr _ rs1 _

theorem TableRow.mtsrEaddr (rs1 : RegIdx) : TableRow.Statement (.mtsrEaddr rs1) :=
  formatI_and_mask_mtsr _ rs1 _

theorem TableRow.mtsrEpc (rs1 : RegIdx) : TableRow.Statement (.mtsrEpc rs1) :=
  formatI_and_mask_mtsr _ rs1 _

theorem TableRow.mtsrEflags (rs1 : RegIdx) : TableRow.Statement (.mtsrEflags rs1) :=
  formatI_and_mask_mtsr _ rs1 _

theorem TableRow.mtsrFlags (rs1 : RegIdx) : TableRow.Statement (.mtsrFlags rs1) :=
  formatI_and_mask_mtsr _ rs1 _

theorem TableRow.nop : TableRow.Statement (.nop) := rfl

end Sys2Proof.Laws
end

