-- ==== Sys2Proof/Tests/Slice0.lean ====
section
/-! SUPPORT. Tests. Expected values come from spec/30_encoding.md (words written out field by field), from
spec/95_test_vectors.md (named in each docstring), or from the rule the docstring cites. `witness_<Name>` shows concrete values
that meet the hypotheses of `Obligations.<Name>`. -/

namespace Sys2Proof.Tests

open Sys2Proof.Machine

/-! ### Decoding: every constructor from a word written out from the spec's encoding -/

/-- Arithmetic family, format R: op, rd, rs1, m = 0, rs2, ten zeros (spec/30_encoding.md R72, R80). -/
theorem test_decode_arith_register :
    decode 0b000000_00001_10001_0_11110_0000000000#32 = .ok (.addR 1#5 17#5 30#5) ∧
    decode 0b000001_00010_10001_0_11101_0000000000#32 = .ok (.subR 2#5 17#5 29#5) ∧
    decode 0b000010_00011_10001_0_11100_0000000000#32 = .ok (.andR 3#5 17#5 28#5) ∧
    decode 0b000011_00100_10001_0_11011_0000000000#32 = .ok (.orR 4#5 17#5 27#5) ∧
    decode 0b000100_00101_10001_0_11010_0000000000#32 = .ok (.xorR 5#5 17#5 26#5) ∧
    decode 0b000101_00110_10001_0_11001_0000000000#32 = .ok (.shlR 6#5 17#5 25#5) ∧
    decode 0b000110_00111_10001_0_11000_0000000000#32 = .ok (.shrR 7#5 17#5 24#5) ∧
    decode 0b000111_01000_10001_0_10111_0000000000#32 = .ok (.sarR 8#5 17#5 23#5) ∧
    decode 0b001000_01001_10001_0_10110_0000000000#32 = .ok (.mulR 9#5 17#5 22#5) ∧
    decode 0b001001_01010_10001_0_10101_0000000000#32 = .ok (.divR 10#5 17#5 21#5) ∧
    decode 0b001010_01011_10001_0_10100_0000000000#32 = .ok (.divuR 11#5 17#5 20#5) ∧
    decode 0b001011_01100_10001_0_10011_0000000000#32 = .ok (.remR 12#5 17#5 19#5) ∧
    decode 0b001100_01101_10001_0_10010_0000000000#32 = .ok (.remuR 13#5 17#5 18#5) ∧
    decode 0b001101_00000_10001_0_01001_0000000000#32 = .ok (.cmpR 17#5 9#5) ∧
    decode 0b001110_00000_01001_0_10001_0000000000#32 = .ok (.tstR 9#5 17#5) := by
  decide

/-- Arithmetic family, format I: op, rd, rs1, m = 1, imm15; LUI in format U (spec/30_encoding.md R73, R74, R80). -/
theorem test_decode_arith_immediate :
    decode 0b000000_11111_00010_1_100000000000000#32 = .ok (.addI 31#5 2#5 0x4000#15) ∧
    decode 0b000001_11110_00010_1_100000000000001#32 = .ok (.subI 30#5 2#5 0x4001#15) ∧
    decode 0b000010_11101_00010_1_100000000000010#32 = .ok (.andI 29#5 2#5 0x4002#15) ∧
    decode 0b000011_11100_00010_1_100000000000011#32 = .ok (.orI 28#5 2#5 0x4003#15) ∧
    decode 0b000100_11011_00010_1_100000000000100#32 = .ok (.xorI 27#5 2#5 0x4004#15) ∧
    decode 0b000101_11010_00010_1_100000000000101#32 = .ok (.shlI 26#5 2#5 0x4005#15) ∧
    decode 0b000110_11001_00010_1_100000000000110#32 = .ok (.shrI 25#5 2#5 0x4006#15) ∧
    decode 0b000111_11000_00010_1_100000000000111#32 = .ok (.sarI 24#5 2#5 0x4007#15) ∧
    decode 0b001000_10111_00010_1_100000000001000#32 = .ok (.mulI 23#5 2#5 0x4008#15) ∧
    decode 0b001001_10110_00010_1_100000000001001#32 = .ok (.divI 22#5 2#5 0x4009#15) ∧
    decode 0b001010_10101_00010_1_100000000001010#32 = .ok (.divuI 21#5 2#5 0x400A#15) ∧
    decode 0b001011_10100_00010_1_100000000001011#32 = .ok (.remI 20#5 2#5 0x400B#15) ∧
    decode 0b001100_10011_00010_1_100000000001100#32 = .ok (.remuI 19#5 2#5 0x400C#15) ∧
    decode 0b001101_00000_00010_1_111111111111111#32 = .ok (.cmpI 2#5 0x7FFF#15) ∧
    decode 0b001110_00000_00010_1_000000000000001#32 = .ok (.tstI 2#5 1#15) ∧
    decode 0b001111_00001_000010010001101000101#32 = .ok (.lui 1#5 0x12345#21) := by
  decide

/-- Memory family, base-register forms (spec/30_encoding.md R72, R73, R81). -/
theorem test_decode_memory_base :
    decode 0b010000_00011_10010_0_11000_0000000000#32 = .ok (.ldbR 3#5 18#5 24#5) ∧
    decode 0b010001_00100_10010_0_10111_0000000000#32 = .ok (.ldbuR 4#5 18#5 23#5) ∧
    decode 0b010010_00101_10010_0_10110_0000000000#32 = .ok (.ldhR 5#5 18#5 22#5) ∧
    decode 0b010011_00110_10010_0_10101_0000000000#32 = .ok (.ldhuR 6#5 18#5 21#5) ∧
    decode 0b010100_00111_10010_0_10100_0000000000#32 = .ok (.ldwR 7#5 18#5 20#5) ∧
    decode 0b010101_01000_10010_0_10011_0000000000#32 = .ok (.stbR 8#5 18#5 19#5) ∧
    decode 0b010110_01001_10010_0_10010_0000000000#32 = .ok (.sthR 9#5 18#5 18#5) ∧
    decode 0b010111_01010_10010_0_10001_0000000000#32 = .ok (.stwR 10#5 18#5 17#5) ∧
    decode 0b010000_00011_10010_1_111111111110000#32 = .ok (.ldbI 3#5 18#5 0x7FF0#15) ∧
    decode 0b010001_00100_10010_1_111111111110001#32 = .ok (.ldbuI 4#5 18#5 0x7FF1#15) ∧
    decode 0b010010_00101_10010_1_111111111110010#32 = .ok (.ldhI 5#5 18#5 0x7FF2#15) ∧
    decode 0b010011_00110_10010_1_111111111110011#32 = .ok (.ldhuI 6#5 18#5 0x7FF3#15) ∧
    decode 0b010100_00111_10010_1_111111111110100#32 = .ok (.ldwI 7#5 18#5 0x7FF4#15) ∧
    decode 0b010101_01000_10010_1_111111111110101#32 = .ok (.stbI 8#5 18#5 0x7FF5#15) ∧
    decode 0b010110_01001_10010_1_111111111110110#32 = .ok (.sthI 9#5 18#5 0x7FF6#15) ∧
    decode 0b010111_01010_10010_1_111111111110111#32 = .ok (.stwI 10#5 18#5 0x7FF7#15) := by
  decide

/-- Memory family, absolute forms (spec/30_encoding.md R74, R81). -/
theorem test_decode_memory_absolute :
    decode 0b011000_10100_100000000000000000001#32 = .ok (.ldba 20#5 0x100001#21) ∧
    decode 0b011001_10101_100000000000000000011#32 = .ok (.ldbua 21#5 0x100003#21) ∧
    decode 0b011010_10110_100000000000000000101#32 = .ok (.ldha 22#5 0x100005#21) ∧
    decode 0b011011_10111_100000000000000000111#32 = .ok (.ldhua 23#5 0x100007#21) ∧
    decode 0b011100_11000_100000000000000001001#32 = .ok (.ldwa 24#5 0x100009#21) ∧
    decode 0b011101_11001_100000000000000001011#32 = .ok (.stba 25#5 0x10000B#21) ∧
    decode 0b011110_11010_100000000000000001101#32 = .ok (.stha 26#5 0x10000D#21) ∧
    decode 0b011111_11011_100000000000000001111#32 = .ok (.stwa 27#5 0x10000F#21) := by
  decide

/-- Branch family: format B with its condition, JAL, JALR, JALA (spec/30_encoding.md R75, R82, R91). -/
theorem test_decode_branch :
    decode 0b100000_0000_1000000000000000000011#32 = .ok (.beq 0x200003#22) ∧
    decode 0b100000_0001_1000000000000000000100#32 = .ok (.bne 0x200004#22) ∧
    decode 0b100000_0010_1000000000000000000101#32 = .ok (.blo 0x200005#22) ∧
    decode 0b100000_0011_1000000000000000000110#32 = .ok (.bhs 0x200006#22) ∧
    decode 0b100000_0100_1000000000000000000111#32 = .ok (.bmi 0x200007#22) ∧
    decode 0b100000_0101_1000000000000000001000#32 = .ok (.bpl 0x200008#22) ∧
    decode 0b100000_0110_1000000000000000001001#32 = .ok (.bvs 0x200009#22) ∧
    decode 0b100000_0111_1000000000000000001010#32 = .ok (.bvc 0x20000A#22) ∧
    decode 0b100000_1000_1000000000000000001011#32 = .ok (.bhi 0x20000B#22) ∧
    decode 0b100000_1001_1000000000000000001100#32 = .ok (.bls 0x20000C#22) ∧
    decode 0b100000_1010_1000000000000000001101#32 = .ok (.bge 0x20000D#22) ∧
    decode 0b100000_1011_1000000000000000001110#32 = .ok (.blt 0x20000E#22) ∧
    decode 0b100000_1100_1000000000000000001111#32 = .ok (.bgt 0x20000F#22) ∧
    decode 0b100000_1101_1000000000000000010000#32 = .ok (.ble 0x200010#22) ∧
    decode 0b100000_1110_1000000000000000010001#32 = .ok (.bal 0x200011#22) ∧
    decode 0b100001_11111_111111111111111111100#32 = .ok (.jal 31#5 0x1FFFFC#21) ∧
    decode 0b100010_00001_00010_0_00011_0000000000#32 = .ok (.jalrR 1#5 2#5 3#5) ∧
    decode 0b100010_00000_11111_1_000000000000000#32 = .ok (.jalrI 0#5 31#5 0#15) ∧
    decode 0b100011_00101_111111111111111111111#32 = .ok (.jala 5#5 0x1FFFFF#21) := by
  decide

/-- System family with its fixed fields and CSR numbers (spec/30_encoding.md R79, R83, R92). -/
theorem test_decode_system :
    decode 0b110000_00000000000000000000000000#32 = .ok (.halt) ∧
    decode 0b110001_00000_00000_1_111111111111111#32 = .ok (.swi 0x7FFF#15) ∧
    decode 0b110010_00000000000000000000000000#32 = .ok (.rti) ∧
    decode 0b110011_00111_00000_1_000000000000000#32 = .ok (.mfsrStatus 7#5) ∧
    decode 0b110011_01000_00000_1_000000000000001#32 = .ok (.mfsrCause 8#5) ∧
    decode 0b110011_01001_00000_1_000000000000010#32 = .ok (.mfsrEaddr 9#5) ∧
    decode 0b110011_01010_00000_1_000000000000011#32 = .ok (.mfsrEpc 10#5) ∧
    decode 0b110011_01011_00000_1_000000000000100#32 = .ok (.mfsrEflags 11#5) ∧
    decode 0b110011_01100_00000_1_000000000000101#32 = .ok (.mfsrFlags 12#5) ∧
    decode 0b110011_01101_00000_1_000000000000110#32 = .ok (.mfsrIpend 13#5) ∧
    decode 0b110100_00000_00111_1_000000000000000#32 = .ok (.mtsrStatus 7#5) ∧
    decode 0b110100_00000_01000_1_000000000000001#32 = .ok (.mtsrCause 8#5) ∧
    decode 0b110100_00000_01001_1_000000000000010#32 = .ok (.mtsrEaddr 9#5) ∧
    decode 0b110100_00000_01010_1_000000000000011#32 = .ok (.mtsrEpc 10#5) ∧
    decode 0b110100_00000_01011_1_000000000000100#32 = .ok (.mtsrEflags 11#5) ∧
    decode 0b110100_00000_01100_1_000000000000101#32 = .ok (.mtsrFlags 12#5) ∧
    decode 0b110101_00000000000000000000000000#32 = .ok (.nop) := by
  decide

/-- spec/95_test_vectors.md 2.5: the reserved opcodes, condition 15 and each constrained field with another value do not decode. -/
theorem test_decode_rejects :
    decode 0x00220C01#32 = .error .unusedBits ∧ decode 0x34218005#32 = .error .flagOnlyDestination ∧
    decode 0x83C00000#32 = .error .reservedCondition ∧ decode 0xC0000001#32 = .error .unusedBits ∧
    decode 0xD4000001#32 = .error .unusedBits ∧ decode 0xC4000007#32 = .error .fixedField ∧
    decode 0xC4208007#32 = .error .fixedField ∧ decode 0xCC208007#32 = .error .noSuchCsr ∧
    decode 0xCC218003#32 = .error .fixedField ∧ decode 0xD0018006#32 = .error .noSuchCsr ∧
    decode 0xD0218003#32 = .error .fixedField ∧ decode 0x90000000#32 = .error .reservedOpcode ∧
    decode 0xBC000000#32 = .error .reservedOpcode ∧ decode 0xD8000000#32 = .error .reservedOpcode ∧
    decode 0xFC000000#32 = .error .reservedOpcode := by
  decide

/-- spec/95_test_vectors.md 2.5 and E8: encoding what these words decode to gives the words back. -/
theorem test_encode_words :
    encode (.addI 1#5 2#5 1#15) = 0x00228001#32 ∧ encode (.bne 0x3FFFFE#22) = 0x807FFFFE#32 ∧
    encode (.mfsrEpc 5#5) = 0xCCA08003#32 ∧ encode (.ldwa 1#5 0x10000#21) = 0x70210000#32 ∧
    encodeBytes .nop = [0x00#8, 0x00#8, 0x00#8, 0xD4#8] := by
  decide

/-- The table's bits of RTI (0xC8000000), laid out as little-endian bytes, decode to RTI; three bytes are no word (R70). -/
theorem test_table_word :
    decodeTableWord 32 0xC8000000 = some .rti ∧ tableBytes 32 0xC8000000 = [0x00#8, 0x00#8, 0x00#8, 0xC8#8] ∧
    decodeBytes [0x00#8, 0x00#8, 0x00#8] = .error .truncated := by
  decide

/-! ### WellFormed: an ill-formed source line for each check of spec/30_encoding.md R95 -/

theorem test_wf_imm15_range :
    Asm.WellFormed 0#32 (.arith .add 1#5 2#5 (.lit 16384)) = false ∧ Asm.WellFormed 0#32 (.cmp 1#5 (.lit (-16385))) = false ∧
    Asm.WellFormed 0#32 (.tst 1#5 (.lit 16384)) = false ∧ Asm.WellFormed 0#32 (.load .ldw 1#5 2#5 (.lit 16384)) = false ∧
    Asm.WellFormed 0#32 (.store .stb 1#5 2#5 (.lit (-16385))) = false ∧ Asm.WellFormed 0#32 (.jalr 1#5 2#5 (.lit 16384)) = false ∧
    Asm.WellFormed 0#32 (.swi 16384) = false ∧ Asm.WellFormed 0#32 (.swi (-16384)) = true := by
  decide

theorem test_wf_imm21_range :
    Asm.WellFormed 0#32 (.lui 1#5 0x200000) = false ∧ Asm.WellFormed 0#32 (.lui 1#5 (-1)) = false ∧
    Asm.WellFormed 0#32 (.loadAbs .ldb 1#5 0x200000) = false ∧ Asm.WellFormed 0#32 (.storeAbs .stw 1#5 (-4)) = false ∧
    Asm.WellFormed 0#32 (.lui 1#5 0x1FFFFF) = true := by
  decide

theorem test_wf_branch_targets :
    Asm.WellFormed 0x10#32 (.bcc .ne 0x12) = false ∧ Asm.WellFormed 0x10#32 (.bcc .ne (0x10 + 8388608)) = false ∧
    Asm.WellFormed 0x10#32 (.bcc .ne (0x10 + 8388604)) = true ∧ Asm.WellFormed 0x10#32 (.jal 1#5 0x11) = false ∧
    Asm.WellFormed 0x10#32 (.jal 1#5 (0x10 - 4194308)) = false ∧ Asm.WellFormed 0x10#32 (.jal 1#5 (0x10 - 4194304)) = true ∧
    Asm.WellFormed 0#32 (.jala 1#5 0x7FFFFE) = false ∧ Asm.WellFormed 0#32 (.jala 1#5 0x800000) = false ∧
    Asm.WellFormed 0#32 (.jala 1#5 0x7FFFFC) = true := by
  decide

theorem test_wf_mtsr_ipend :
    Asm.WellFormed 0#32 (.mtsr .ipend 1#5) = false ∧ Asm.WellFormed 0#32 (.mtsr .flags 1#5) = true := by
  decide

/-! ### Helpers: small start states -/

/-- Every handler of the table at 0x200. -/
def handlers : Config where
  memCapacity := 0x10000
  entryPoint := 0x00000000#32
  vectors := {
    illegalOpcode := some 0x200#32
    memoryFault := some 0x200#32
    divideByZero := some 0x200#32
    softwareInterrupt := some 0x200#32
    externalInterrupt := some 0x200#32 }

/-- Reset with the handlers of `handlers`. -/
def base : State := State.initial handlers

/-- The word `w` at address `a`. -/
def withWord (a : Nat) (w : Word) (s : State) : State := { s with mem := Memory.writeBytes s.mem a (bytesOfWord w) }

/-- The flags written `CZNV` (spec/95_test_vectors.md section 0). -/
def cznv (b : BitVec 4) : Flags := { c := b.getLsbD 3, z := b.getLsbD 2, n := b.getLsbD 1, v := b.getLsbD 0 }

/-- `w` at pc 0 with r1 = 0xDEAD, r2 = a, r3 = b. -/
def abStart (w a b : Word) : State := withWord 0 w (((base.setReg 1#5 0xDEAD#32).setReg 2#5 a).setReg 3#5 b)

/-- r1 and the flags after one step. -/
def abAfter (w a b : Word) : Word × Flags := ((hostStep (abStart w a b)).1.reg 1#5, (hostStep (abStart w a b)).1.flags)

/-- The bytes BB AA 99 88 at 0x100 and `w` at pc 0, with r1 and r2 given. -/
def memStart (w r1 r2 : Word) : State := withWord 0x100 0x8899AABB#32 (withWord 0 w ((base.setReg 1#5 r1).setReg 2#5 r2))

/-- r1 after one step. -/
def loadAfter (w r2 : Word) : Word := (hostStep (memStart w 0xDEAD#32 r2)).1.reg 1#5

/-- The word at 0x100 after one step with r1 = 0x12345678. -/
def storeAfter (w r2 : Word) : Word := (hostStep (memStart w 0x12345678#32 r2)).1.memRead 0x100#32 4

/-- `w` at `pc`, in the state `s`. -/
def atPc (pc w : Word) (s : State) : State := { withWord pc.toNat w s with pc := pc }

/-- What one step answers to the host. -/
def result (s : State) : StepResult := (hostStep s).2

/-- The state after one step. -/
def after (s : State) : State := (hostStep s).1

/-! ### The arithmetic family (spec/95_test_vectors.md 2.1) -/

theorem test_add :
    abAfter 0x00220C00#32 0x7FFFFFFF#32 1#32 = (0x80000000#32, cznv 0b0011#4) ∧
    abAfter 0x00220C00#32 0x80000000#32 0x80000000#32 = (0#32, cznv 0b1101#4) := by
  decide

theorem test_add_to_r0 :
    (after (withWord 0 0x0001FFFB#32 (base.setReg 1#5 5#32))).reg 0#5 = 0#32 ∧
    (after (withWord 0 0x0001FFFB#32 (base.setReg 1#5 5#32))).flags = cznv 0b1100#4 := by
  decide

theorem test_sub :
    abAfter 0x04220C00#32 0x7FFFFFFF#32 0xFFFFFFFF#32 = (0x80000000#32, cznv 0b1011#4) ∧
    abAfter 0x04220C00#32 3#32 5#32 = (0xFFFFFFFE#32, cznv 0b1010#4) := by
  decide

theorem test_bitwise :
    abAfter 0x08220C00#32 0xFFFFFFFF#32 0x80000000#32 = (0x80000000#32, cznv 0b0010#4) ∧
    abAfter 0x0822C000#32 0xFFFFFFFF#32 0#32 = (0xFFFFC000#32, cznv 0b0010#4) ∧
    abAfter 0x0C220C00#32 0x01122000#32 0x344#32 = (0x01122344#32, cznv 0b0000#4) ∧
    abAfter 0x10220C00#32 0x1234#32 0x1234#32 = (0#32, cznv 0b0100#4) := by
  decide

theorem test_shifts :
    abAfter 0x14220C00#32 0x80000001#32 1#32 = (2#32, cznv 0b1000#4) ∧
    abAfter 0x14220C00#32 0x12345678#32 0x20#32 = (0x12345678#32, cznv 0b0000#4) ∧
    abAfter 0x18220C00#32 1#32 1#32 = (0#32, cznv 0b1100#4) ∧
    abAfter 0x1C220C00#32 0xFFFFFFF9#32 1#32 = (0xFFFFFFFC#32, cznv 0b1010#4) := by
  decide

theorem test_mul :
    abAfter 0x20220C00#32 6#32 0xFFFFFFF9#32 = (0xFFFFFFD6#32, cznv 0b1010#4) ∧
    abAfter 0x20220C00#32 0x80000000#32 0xFFFFFFFF#32 = (0x80000000#32, cznv 0b1011#4) := by
  decide

theorem test_divisions :
    abAfter 0x24220C00#32 0xFFFFFFF9#32 2#32 = (0xFFFFFFFD#32, cznv 0b0010#4) ∧
    abAfter 0x24220C00#32 0x80000000#32 0xFFFFFFFF#32 = (0x80000000#32, cznv 0b0011#4) ∧
    abAfter 0x28220C00#32 0xFFFFFFF9#32 2#32 = (0x7FFFFFFC#32, cznv 0b0000#4) ∧
    abAfter 0x2C220C00#32 0xFFFFFFF9#32 2#32 = (0xFFFFFFFF#32, cznv 0b0010#4) ∧
    abAfter 0x30220C00#32 0xFFFFFFFF#32 0x10#32 = (0xF#32, cznv 0b0000#4) := by
  decide

/-- spec/95_test_vectors.md E4 and 2.1: division by 0 traps and leaves r1. -/
theorem test_division_by_zero :
    result (abStart 0x24220C00#32 5#32 0#32) = .trapped ⟨.divideByZero, 0#8, 0#32⟩ ∧
    abAfter 0x24220C00#32 5#32 0#32 = (0xDEAD#32, cznv 0b0000#4) ∧
    result (abStart 0x30220C00#32 5#32 0#32) = .trapped ⟨.divideByZero, 0#8, 0#32⟩ := by
  decide

theorem test_cmp_tst_lui :
    abAfter 0x34020C00#32 0x80000000#32 1#32 = (0xDEAD#32, cznv 0b0001#4) ∧
    abAfter 0x38020C00#32 2#32 1#32 = (0xDEAD#32, cznv 0b0100#4) ∧
    abAfter 0x3C202244#32 0#32 0#32 = (0x01122000#32, cznv 0b0000#4) := by
  decide

/-! ### The memory family (spec/95_test_vectors.md 2.2) -/

theorem test_loads :
    loadAfter 0x40228003#32 0x100#32 = 0xFFFFFF88#32 ∧ loadAfter 0x44228000#32 0x100#32 = 0xBB#32 ∧
    loadAfter 0x48228002#32 0x100#32 = 0xFFFF8899#32 ∧ loadAfter 0x4C228002#32 0x100#32 = 0x8899#32 ∧
    loadAfter 0x50228000#32 0x100#32 = 0x8899AABB#32 ∧ loadAfter 0x5022FFFC#32 0x104#32 = 0x8899AABB#32 := by
  decide

theorem test_absolute_loads :
    loadAfter 0x60200100#32 0#32 = 0xFFFFFFBB#32 ∧ loadAfter 0x64200100#32 0#32 = 0xBB#32 ∧
    loadAfter 0x68200102#32 0#32 = 0xFFFF8899#32 ∧ loadAfter 0x6C200102#32 0#32 = 0x8899#32 ∧
    loadAfter 0x70200100#32 0#32 = 0x8899AABB#32 := by
  decide

theorem test_stores :
    storeAfter 0x54228001#32 0x100#32 = 0x889978BB#32 ∧ storeAfter 0x58228002#32 0x100#32 = 0x5678AABB#32 ∧
    storeAfter 0x5C228000#32 0x100#32 = 0x12345678#32 ∧ storeAfter 0x74200101#32 0#32 = 0x889978BB#32 ∧
    storeAfter 0x78200102#32 0#32 = 0x5678AABB#32 ∧ storeAfter 0x7C200100#32 0#32 = 0x12345678#32 := by
  decide

theorem test_bad_accesses :
    result (memStart 0x50228002#32 0#32 0x100#32) = .trapped ⟨.memoryFault, 1#8, 0x102#32⟩ ∧
    result (memStart 0x5C228000#32 0#32 0xFFFE#32) = .trapped ⟨.memoryFault, 0#8, 0xFFFE#32⟩ ∧
    result (memStart 0x70210000#32 0#32 0#32) = .trapped ⟨.memoryFault, 0#8, 0x10000#32⟩ ∧
    (after (memStart 0x50228002#32 0#32 0x100#32)).cause = 0x102#32 := by
  decide

/-- The effective address wraps modulo 2^32 (spec/95_test_vectors.md 2.2, 92 D55). -/
theorem test_address_wraps : loadAfter 0x50228004#32 0xFFFFFFFC#32 = 0x50228004#32 := by decide

/-! ### The branch family (spec/95_test_vectors.md 2.3) -/

theorem test_conditional_branches :
    (after (atPc 0x10#32 0x807FFFFE#32 base)).pc = 0x08#32 ∧
    (after (atPc 0x10#32 0x807FFFFE#32 (base.setFlags (cznv 0b0100#4)))).pc = 0x14#32 ∧
    result (atPc 0x10#32 0x83804000#32 base) = .trapped ⟨.memoryFault, 0#8, 0x10010#32⟩ ∧
    (after (atPc 0x10#32 0x80004000#32 base)).pc = 0x14#32 := by
  decide

/-- The rows `0xFFFFFFFF, 1` and `0x80000000, 1` of the table of conditions after CMP. -/
theorem test_conditions :
    [Cond.eq, .ne, .lo, .hs, .mi, .pl, .vs, .vc, .hi, .ls, .ge, .lt, .gt, .le, .al].map (fun c => condHolds c (cznv 0b0010#4))
      = [false, true, false, true, true, false, false, true, true, false, false, true, false, true, true] ∧
    [Cond.eq, .ne, .lo, .hs, .mi, .pl, .vs, .vc, .hi, .ls, .ge, .lt, .gt, .le, .al].map (fun c => condHolds c (cznv 0b0001#4))
      = [false, true, false, true, false, true, true, false, true, false, false, true, false, true, true] := by
  decide

theorem test_jumps :
    ((after (atPc 0x10#32 0x87FFFFFC#32 base)).reg 31#5, (after (atPc 0x10#32 0x87FFFFFC#32 base)).pc) = (0x14#32, 0x0#32) ∧
    ((after (atPc 0x20#32 0x8BFF8000#32 (base.setReg 31#5 0x40#32))).reg 31#5,
      (after (atPc 0x20#32 0x8BFF8000#32 (base.setReg 31#5 0x40#32))).pc) = (0x24#32, 0x40#32) ∧
    (after (atPc 0x10#32 0x8C000040#32 base)).pc = 0x100#32 := by
  decide

theorem test_bad_jump_writes_no_link :
    result (atPc 0x20#32 0x88228002#32 (base.setReg 2#5 0x40#32)) = .trapped ⟨.memoryFault, 1#8, 0x42#32⟩ ∧
    (after (atPc 0x10#32 0x8CBFFFFF#32 (base.setReg 5#5 0x77#32))).reg 5#5 = 0x77#32 := by
  decide

/-! ### The system family (spec/95_test_vectors.md 2.4) -/

theorem test_mfsr_mtsr :
    (after (withWord 0 0xCC208000#32 base)).reg 1#5 = 0x2#32 ∧
    (after (withWord 0 0xD0018005#32 (base.setReg 1#5 15#32))).flags = cznv 0b1111#4 ∧
    (after (withWord 0 0xD0018000#32 (base.setReg 1#5 31#32))).csr .status = 0xF#32 ∧
    (after (withWord 0 0xD0018004#32 (base.setReg 1#5 0xFFFFFFFF#32))).csr .eflags = 0xF#32 ∧
    (after (withWord 0 0xCC208006#32 { base with irq := true })).reg 1#5 = 1#32 := by
  decide

theorem test_halt_nop :
    result (withWord 0 0xC0000000#32 base) = .halted .halt ∧ (after (withWord 0 0xC0000000#32 base)).pc = 0#32 ∧
    (after (atPc 0x40#32 0xD4000000#32 base)).pc = 0x44#32 := by
  decide

theorem test_swi :
    result (withWord 0 0xC400FFFF#32 base) = .trapped ⟨.softwareInterrupt, 0#8, 0xFFFFFFFF#32⟩ ∧
    (after (withWord 0 0xC4008007#32 base)).csr .status = 0x1A#32 ∧
    (after (withWord 0 0xC4008007#32 base)).eaddr = 7#32 := by
  decide

/-- In a handler with EPC = 4, EFLAGS = 2 and STATUS = 0x1A. -/
def inHandler : State :=
  { base with
    epc := 0x4#32
    eflags := 2#4
    status := { ie := false, priv := true, pie := false, ppriv := true, inh := true } }

theorem test_rti :
    (after (withWord 0 0xC8000000#32 inHandler)).pc = 0x4#32 ∧
    (after (withWord 0 0xC8000000#32 inHandler)).flags = cznv 0b0100#4 ∧
    (after (withWord 0 0xC8000000#32 inHandler)).csr .status = 0x0A#32 ∧
    result (withWord 0 0xC8000000#32 { base with epc := 0x42#32 }) = .trapped ⟨.memoryFault, 1#8, 0x42#32⟩ := by
  decide

/-- User mode at 0x40. -/
def user : State := { base.atLevel false with pc := 0x40#32 }

theorem test_user_mode :
    result (atPc 0x40#32 0xC0000000#32 user) = .trapped ⟨.illegalOpcode, 1#8, 0xC0000000#32⟩ ∧
    (after (atPc 0x40#32 0xC0000000#32 user)).csr .status = 0x12#32 ∧
    result (atPc 0x40#32 0xCC208005#32 user) = .executed ∧
    result (atPc 0x40#32 0xD0008000#32 user) = .trapped ⟨.illegalOpcode, 1#8, 0xD0008000#32⟩ ∧
    result (atPc 0x40#32 0xFC000000#32 user) = .trapped ⟨.illegalOpcode, 0#8, 0xFC000000#32⟩ := by
  decide

/-! ### The step and the host's calls (spec/95_test_vectors.md E3, 2.6 and "Construction") -/

/-- An interrupt pending and enabled at pc 0xC with C and N set (E7). -/
def pending : State :=
  { base with
    pc := 0xC#32
    flags := cznv 0b1010#4
    irq := true
    status := { ie := true, priv := true, pie := false, ppriv := false, inh := false } }

theorem test_interrupt :
    result pending = .interrupted ∧ (after pending).pc = 0x200#32 ∧ (after pending).epc = 0xC#32 ∧
    (after pending).csr .eflags = 5#32 ∧ (after pending).csr .status = 0x1E#32 ∧ (after pending).irq = false := by
  decide

theorem test_unhandled_and_double_fault :
    result (withWord 0 0xC4008007#32 State.reset) = .halted (.unhandled ⟨.softwareInterrupt, 0#8, 7#32⟩) ∧
    (after (withWord 0 0xC4008007#32 State.reset)).csr .status = 0x2#32 ∧
    result (withWord 0 0x90000000#32 inHandler) = .halted (.doubleFault ⟨.illegalOpcode, 0#8, 0x90000000#32⟩) := by
  decide

theorem test_halt_request_first : result { pending with haltReq := true } = .halted .externalHalt := by decide

theorem test_construction :
    (construct { handlers with memCapacity := 3 }).isNone = true ∧
    (construct { handlers with entryPoint := 2#32 }).isNone = true ∧
    (construct { handlers with entryPoint := 0x10000#32 }).isNone = true ∧
    (construct { handlers with vectors := { memoryFault := some 0x10000#32 } }).isNone = true ∧
    (construct { handlers with vectors := { doubleFault := some 3#32 } }).isSome = true ∧
    (construct { memCapacity := 4, entryPoint := 0#32, vectors := {} }).isSome = true := by
  decide

theorem test_host_calls :
    loadImage [1#8, 2#8, 3#8] 0xFFFE#32 base = none ∧ injectInterrupt .divideByZero base = none ∧
    readRegister base 32 = none ∧ readMemory base 0xFFFE#32 4 = .fault .outOfBounds 0xFFFE#32 ∧
    readMemory base 0x100#32 3 = .refused ∧ (run 0 base).reason = .budgetExhausted := by
  decide

/-- A zero-filled memory runs `ADD r0, r0, r0` (spec/30_encoding.md R87), and a word stored where the next step fetches runs first. -/
theorem test_first_instruction :
    boundary State.reset = .run (.addR 0#5 0#5 0#5) ∧
    (after (State.reset.withFetchWord 32 0x00208003)).reg 1#5 = 3#32 ∧
    Memory.wf 0x10000 (State.reset.withFetchWord 32 0x00208003).mem = true := by
  refine ⟨rfl, ?_, ?_⟩ <;> decide

/-! ### The assembler (spec/95_test_vectors.md section 3, spec/30_encoding.md R94-R96) -/

theorem test_assembler :
    (assemble 0x10#32 (.bcc .ne 0x08)).map encode = some 0x807FFFFE#32 ∧
    (assemble 0x10#32 (.jal 31#5 0)).map encode = some 0x87FFFFFC#32 ∧
    (assemble 0#32 (.store .stw 31#5 30#5 (.lit 0))).map encode = some 0x5FFE8000#32 ∧
    (assemblePseudo 0x30#32 .ret).map (List.map encode) = some [0x881F8000#32] ∧
    (assemblePseudo 0#32 (.li 1#5 0x11223344)).map (List.map encode) = some [0x3C222446#32, 0x0C218344#32] := by
  decide

theorem test_asm_text :
    asmText (.arith .add 1#5 2#5 (.reg 3#5)) = "ADD r1, r2, r3" ∧ asmText (.load .ldw 1#5 2#5 (.lit (-4))) = "LDW r1, [r2 - 4]" := by
  decide

/-! ### Witnesses: values that meet each statement's hypotheses -/

/-- r2 = 0xFFFC, r3 = 1, r5 = -7, r6 = 2, r7 = 0x80000000, r8 = 0xFFFFFFFF, r10 = 0xFFFF. -/
def regs : State :=
  (((((((base.setReg 2#5 0xFFFC#32).setReg 3#5 1#32).setReg 5#5 0xFFFFFFF9#32).setReg 6#5 2#32).setReg 7#5 0x80000000#32).setReg 8#5
    0xFFFFFFFF#32).setReg 10#5 0xFFFF#32)

/-- Within the memory of `regs` and misaligned for `n` bytes. -/
abbrev bad (n : Nat) (a : Word) : Prop := a.toNat + n ≤ regs.cfg.memCapacity ∧ a.toNat % n ≠ 0

theorem witness_EncodeOfDecodeIsIdentity :
    decode 0x00228001#32 = .ok (.addI 1#5 2#5 1#15) ∧ decode 0xD0058005#32 = .ok (.mtsrFlags 5#5) := by
  decide

theorem witness_RegisterFileReadsLastWrite : (31#5 : RegIdx) ≠ 0#5 ∧ (30#5 : RegIdx) ≠ 31#5 := by decide

theorem witness_DivisionResults :
    regs.reg 6#5 ≠ 0x00000000#32 ∧ regs.reg 9#5 = 0x00000000#32 ∧
    (0x7FFF#15 : BitVec 15).signExtend 32 ≠ 0x00000000#32 ∧ (0#15 : BitVec 15).signExtend 32 = 0x00000000#32 := by
  decide

/-- -7 by 2, and the overflow 0x80000000 by -1. -/
theorem witness_DivisionLaw :
    (1#5 : RegIdx) ≠ 0#5 ∧ regs.reg 6#5 ≠ 0x00000000#32 ∧ regs.reg 8#5 ≠ 0x00000000#32 ∧
    ¬(regs.reg 5#5 = 0x80000000#32 ∧ regs.reg 6#5 = 0xFFFFFFFF#32) ∧
    (∃ t u t' u', exec (.divR 1#5 5#5 6#5) regs = .next t ∧ exec (.remR 1#5 5#5 6#5) regs = .next u ∧
      exec (.divuR 1#5 5#5 6#5) regs = .next t' ∧ exec (.remuR 1#5 5#5 6#5) regs = .next u') ∧
    (∃ t u t' u', exec (.divR 1#5 7#5 8#5) regs = .next t ∧ exec (.remR 1#5 7#5 8#5) regs = .next u ∧
      exec (.divuR 1#5 7#5 8#5) regs = .next t' ∧ exec (.remuR 1#5 7#5 8#5) regs = .next u') := by
  refine ⟨by decide, by decide, by decide, by decide, ⟨_, _, _, _, rfl, rfl, rfl, rfl⟩, ⟨_, _, _, _, rfl, rfl, rfl, rfl⟩⟩

/-- In bounds at the last byte and halfword, out of bounds by one byte, misaligned at the last address in bounds: in each address form. -/
theorem witness_NarrowLoadResults :
    (AccessOk regs (regs.reg 10#5 + regs.reg 9#5) 1 ∧ AccessOk regs (regs.reg 2#5 + (3#15 : BitVec 15).signExtend 32) 1 ∧
      AccessOk regs ((0xFFFF#21 : BitVec 21).setWidth 32) 1) ∧
    (regs.cfg.memCapacity < (regs.reg 10#5 + regs.reg 3#5).toNat + 1 ∧
      regs.cfg.memCapacity < (regs.reg 2#5 + (4#15 : BitVec 15).signExtend 32).toNat + 1 ∧
      regs.cfg.memCapacity < ((0x10000#21 : BitVec 21).setWidth 32 : Word).toNat + 1) ∧
    (AccessOk regs (regs.reg 2#5 + regs.reg 6#5) 2 ∧ AccessOk regs (regs.reg 2#5 + (2#15 : BitVec 15).signExtend 32) 2 ∧
      AccessOk regs ((0xFFFE#21 : BitVec 21).setWidth 32) 2) ∧
    (regs.cfg.memCapacity < (regs.reg 10#5 + regs.reg 9#5).toNat + 2 ∧
      regs.cfg.memCapacity < (regs.reg 2#5 + (3#15 : BitVec 15).signExtend 32).toNat + 2 ∧
      regs.cfg.memCapacity < ((0xFFFF#21 : BitVec 21).setWidth 32 : Word).toNat + 2) ∧
    (bad 2 (regs.reg 2#5 + regs.reg 3#5) ∧ bad 2 (regs.reg 2#5 + (1#15 : BitVec 15).signExtend 32) ∧
      bad 2 ((0xFFFD#21 : BitVec 21).setWidth 32)) := by
  decide

theorem witness_WordLoadResults :
    (AccessOk regs (regs.reg 2#5 + regs.reg 9#5) 4 ∧ AccessOk regs (regs.reg 2#5 + (0#15 : BitVec 15).signExtend 32) 4 ∧
      AccessOk regs ((0xFFFC#21 : BitVec 21).setWidth 32) 4) ∧
    (regs.cfg.memCapacity < (regs.reg 2#5 + regs.reg 3#5).toNat + 4 ∧
      regs.cfg.memCapacity < (regs.reg 2#5 + (1#15 : BitVec 15).signExtend 32).toNat + 4 ∧
      regs.cfg.memCapacity < ((0xFFFD#21 : BitVec 21).setWidth 32 : Word).toNat + 4) ∧
    (bad 4 (regs.reg 2#5 + regs.reg 8#5) ∧ bad 4 (regs.reg 2#5 + (0x7FFF#15 : BitVec 15).signExtend 32) ∧
      bad 4 ((0xFFFB#21 : BitVec 21).setWidth 32)) := by
  decide

/-- The addresses are those of `witness_NarrowLoadResults` and `witness_WordLoadResults`, over a memory that lists a word. -/
theorem witness_StoreResults :
    Memory.wf regs.cfg.memCapacity (withWord 0xFFFC 0x8899AABB#32 regs).mem = true ∧
    (withWord 0xFFFC 0x8899AABB#32 regs).regs = regs.regs ∧
    AccessOk (withWord 0xFFFC 0x8899AABB#32 regs) (regs.reg 2#5 + (0#15 : BitVec 15).signExtend 32) 4 ∧
    regs.cfg.memCapacity < (regs.reg 2#5 + (1#15 : BitVec 15).signExtend 32).toNat + 4 ∧
    bad 4 (regs.reg 2#5 + (0x7FFF#15 : BitVec 15).signExtend 32) := by
  decide

theorem witness_StoreThenLoadReturnsValue :
    Memory.wf regs.cfg.memCapacity regs.mem = true ∧ (1#5 : RegIdx) ≠ 0#5 ∧
    AccessOk regs (regs.reg 2#5 + (0#15 : BitVec 15).signExtend 32) 4 ∧
    AccessOk regs (regs.reg 2#5 + (2#15 : BitVec 15).signExtend 32) 2 ∧
    AccessOk regs (regs.reg 2#5 + (3#15 : BitVec 15).signExtend 32) 1 ∧
    (∃ t u, exec (.stwI 5#5 2#5 0#15) regs = .next t ∧ exec (.ldwI 1#5 2#5 0#15) t = .next u) ∧
    (∃ t u v, exec (.sthI 5#5 2#5 2#15) regs = .next t ∧ exec (.ldhuI 1#5 2#5 2#15) t = .next u ∧
      exec (.ldhI 1#5 2#5 2#15) t = .next v) ∧
    (∃ t u v, exec (.stbI 5#5 2#5 3#15) regs = .next t ∧ exec (.ldbuI 1#5 2#5 3#15) t = .next u ∧
      exec (.ldbI 1#5 2#5 3#15) t = .next v) := by
  refine ⟨by decide, by decide, by decide, by decide, by decide, ⟨_, _, rfl, rfl⟩, ⟨_, _, _, rfl, rfl, rfl⟩,
    ⟨_, _, _, rfl, rfl, rfl⟩⟩

/-- Not taken; taken to the last word of memory; taken to the capacity. A bad target is out of bounds only, unless pc is misaligned. -/
theorem witness_ConditionalBranchResult :
    bccForm (.beq 0x3FFF#22) = some (.eq, 0x3FFF#22) ∧ condHolds .eq base.flags = false ∧
    bccForm (.bne 0x3FFF#22) = some (.ne, 0x3FFF#22) ∧ condHolds .ne base.flags = true ∧
    AccessOk base (base.pc + (0x3FFF#22 : BitVec 22).signExtend 32 * 4#32) 4 ∧
    base.cfg.memCapacity < (base.pc + (0x4000#22 : BitVec 22).signExtend 32 * 4#32).toNat + 4 ∧
    bad 4 (({ base with pc := 2#32 } : State).pc + (0x3FFE#22 : BitVec 22).signExtend 32 * 4#32) := by
  decide

theorem witness_JumpAndLinkResult :
    (AccessOk base (base.pc + (0x3FFF#21 : BitVec 21).signExtend 32 * 4#32) 4 ∧ AccessOk regs (regs.reg 2#5 + regs.reg 9#5) 4 ∧
      AccessOk regs (regs.reg 2#5 + (0x7FFC#15 : BitVec 15).signExtend 32) 4 ∧
      AccessOk base ((0x3FFF#21 : BitVec 21).setWidth 32 * 4#32) 4) ∧
    (base.cfg.memCapacity < (base.pc + (0x4000#21 : BitVec 21).signExtend 32 * 4#32).toNat + 4 ∧
      regs.cfg.memCapacity < (regs.reg 2#5 + regs.reg 3#5).toNat + 4 ∧
      regs.cfg.memCapacity < (regs.reg 2#5 + (1#15 : BitVec 15).signExtend 32).toNat + 4 ∧
      base.cfg.memCapacity < ((0x4000#21 : BitVec 21).setWidth 32 * 4#32 : Word).toNat + 4) ∧
    (bad 4 (({ base with pc := 2#32 } : State).pc + (0x3FFE#21 : BitVec 21).signExtend 32 * 4#32) ∧
      bad 4 (regs.reg 2#5 + regs.reg 8#5) ∧ bad 4 (regs.reg 2#5 + (0x7FFF#15 : BitVec 15).signExtend 32)) := by
  decide

theorem witness_HaltAndNopResult : base.status.priv = true ∧ user.status.priv = false := by decide

/-- User mode; a good EPC at the last word; EPC at the capacity; a misaligned EPC. -/
theorem witness_RtiRestores :
    user.status.priv = false ∧ inHandler.status.priv = true ∧ AccessOk inHandler inHandler.epc 4 ∧
    AccessOk { base with epc := 0xFFFC#32 } 0xFFFC#32 4 ∧
    inHandler.cfg.memCapacity < ({ inHandler with epc := 0xFFFD#32 } : State).epc.toNat + 4 ∧
    bad 4 ({ inHandler with epc := 0xFFFB#32 } : State).epc := by
  decide

theorem witness_TrapEntryThenRtiResumes :
    (∃ h, VectorTable.handler user.cfg.vectors .softwareInterrupt = some h) ∧ AccessOk user user.pc 4 ∧
    ∃ t u, (vectorTrap (trapSoftware 7#15) user.pc user).1 = t ∧ exec .rti t = .next u := by
  refine ⟨⟨_, rfl⟩, by decide, ⟨_, _, rfl, rfl⟩⟩

theorem witness_PrivilegeCheckIsExact :
    privileged .rti = true ∧ privileged (.mtsrEpc 1#5) = true ∧ user.status.priv = false ∧
    privileged (.mtsrFlags 1#5) = false ∧ privileged (.swi 1#15) = false := by
  decide

theorem witness_MfsrReads : inHandler.status.priv = true ∧ user.status.priv = false := by decide

theorem witness_MtsrWrites : inHandler.status.priv = true ∧ user.status.priv = false := by decide

theorem witness_RegisterFrame : (∃ t, exec (.jal 31#5 1#21) base = .next t) ∧ destReg (.jal 31#5 1#21) ≠ some 30#5 :=
  ⟨⟨_, rfl⟩, by decide⟩

theorem witness_FlagFrame : (∃ t, exec (.ldwI 1#5 2#5 0#15) regs = .next t) ∧ writesFlags (.ldwI 1#5 2#5 0#15) = false :=
  ⟨⟨_, rfl⟩, by decide⟩

/-- A store, at the bytes next to the stored ones, and an instruction that stores nothing. -/
theorem witness_MemoryFrame :
    (∃ t, exec (.stwI 5#5 2#5 0x7FFC#15) regs = .next t) ∧
    storeAccess (.stwI 5#5 2#5 0x7FFC#15) regs = some (0xFFF8#32, 4, 5#5) ∧
    (0xFFF7 < (0xFFF8#32 : Word).toNat ∨ (0xFFF8#32 : Word).toNat + 4 ≤ 0xFFF7) ∧
    (0xFFFC < (0xFFF8#32 : Word).toNat ∨ (0xFFF8#32 : Word).toNat + 4 ≤ 0xFFFC) ∧
    (∃ t, exec .nop regs = .next t) ∧ storeAccess .nop regs = none :=
  ⟨⟨_, rfl⟩, by decide, by decide, by decide, ⟨_, rfl⟩, rfl⟩

theorem witness_ControlFrame :
    (∃ t, exec (.addI 1#5 2#5 1#15) regs = .next t) ∧ (∀ tr, (execute (.addI 1#5 2#5 1#15) regs).2 ≠ .trap tr) ∧
    writesControl (.addI 1#5 2#5 1#15) = false := by
  refine ⟨⟨_, rfl⟩, ?_, rfl⟩
  intro tr h
  cases h

theorem witness_TrappingInstructionWritesNothing :
    (execute (.swi 7#15) base).2 = .trap ⟨.softwareInterrupt, 0#8, 7#32⟩ ∧
    (execute (.jala 5#5 0x1FFFFF#21) base).2 = .trap ⟨.memoryFault, 0#8, 0x7FFFFC#32⟩ := by
  decide

theorem witness_StepRunsDecodedInstruction :
    Runs base ∧ AccessOk base base.pc 4 ∧
    decodeBytes [Memory.read base.mem 0, Memory.read base.mem 1, Memory.read base.mem 2, Memory.read base.mem 3]
      = .ok (.addR 0#5 0#5 0#5, []) := by
  decide

/-- At the last word of memory. -/
theorem witness_LoadedInstructionRuns :
    Memory.wf base.cfg.memCapacity base.mem = true ∧ Runs { base with pc := 0xFFFC#32 } ∧ AccessOk base 0xFFFC#32 4 ∧
    (loadImage (encodeBytes .rti) 0xFFFC#32 { base with pc := 0xFFFC#32 }).isSome = true := by
  decide

theorem witness_FetchFaultTraps :
    Runs { base with pc := 0x10000#32 } ∧ base.cfg.memCapacity < (0x10000#32 : Word).toNat + 4 ∧ Runs { base with pc := 0xFFFB#32 } ∧
    (0xFFFB#32 : Word).toNat + 4 ≤ base.cfg.memCapacity ∧ (0xFFFB#32 : Word).toNat % 4 ≠ 0 := by
  decide

/-- A reserved opcode, and MTSR of the read-only IPEND. -/
theorem witness_IllegalWordTraps :
    Runs (withWord 0 0xFC000000#32 base) ∧ AccessOk base base.pc 4 ∧ IllegalWord 0xFC000000#32 ∧ IllegalWord 0xD0018006#32 ∧
    Memory.read (withWord 0 0xFC000000#32 base).mem 3 ++ Memory.read (withWord 0 0xFC000000#32 base).mem 2
      ++ Memory.read (withWord 0 0xFC000000#32 base).mem 1 ++ Memory.read (withWord 0 0xFC000000#32 base).mem 0
      = 0xFC000000#32 :=
  ⟨by decide, by decide, by simp [IllegalWord], by simp [IllegalWord], by decide⟩

/-- A trap with a handler and one without. -/
theorem witness_TrapEntrySavesTheContext :
    VectorTable.handler base.cfg.vectors .externalInterrupt = some 0x200#32 ∧
    VectorTable.handler State.reset.cfg.vectors .externalInterrupt = none := by
  decide

/-- With a handler and without one. -/
theorem witness_ExternalInterruptIsVectored :
    pending.halted = false ∧ pending.haltReq = false ∧ pending.irq = true ∧ pending.status.ie = true ∧
    pending.cfg.vectors.externalInterrupt = some 0x200#32 ∧
    ({ pending with cfg := Config.standard } : State).cfg.vectors.externalInterrupt = none := by
  decide

theorem witness_HaltRequestWins :
    ({ pending with haltReq := true } : State).halted = false ∧ ({ pending with haltReq := true } : State).haltReq = true := by
  decide

/-- The core after a HALT, and each call of the host on it. -/
theorem witness_HaltedCoreIsUnchanged :
    (haltWith .halt base).1.halted = true ∧ (injectInterrupt .externalInterrupt (haltWith .halt base).1).isSome = true ∧
    (loadImage [1#8] 0#32 (haltWith .halt base).1).isSome = true := by
  decide

/-- SWI in a handler that has set IE again. -/
def nesting : State :=
  withWord 0 0xC4008007#32
    { inHandler with status := { ie := true, priv := true, pie := false, ppriv := true, inh := true } }

/-- In a handler with IE = 0: a bad pc, a reserved word, and an instruction that traps; the last with IE = 1 too. -/
theorem witness_DoubleFaultHalts :
    Runs inHandler ∧ inHandler.status.inh = true ∧ inHandler.status.ie = false ∧
    State.check { inHandler with pc := 0x10000#32 } 0x10000#32 4 = some .outOfBounds ∧ Runs { inHandler with pc := 0x10000#32 } ∧
    inHandler.check inHandler.pc 4 = none ∧ decode (withWord 0 0x90000000#32 inHandler).fetchWord = .error .reservedOpcode ∧
    decode (withWord 0 0xC4008007#32 inHandler).fetchWord = .ok (.swi 7#15) ∧
    (execute (.swi 7#15) (withWord 0 0xC4008007#32 inHandler)).2 = .trap ⟨.softwareInterrupt, 0#8, 7#32⟩ ∧
    Runs nesting ∧ nesting.status.inh = true ∧ nesting.status.ie = true ∧ nesting.check nesting.pc 4 = none ∧
    decode nesting.fetchWord = .ok (.swi 7#15) ∧ (execute (.swi 7#15) nesting).2 = .trap ⟨.softwareInterrupt, 0#8, 7#32⟩ ∧
    VectorTable.handler nesting.cfg.vectors .softwareInterrupt = some 0x200#32 := by
  decide

/-- A step that stays in user mode and one that traps. -/
theorem witness_UserReachesControlOnlyByTrap :
    user.status.priv = false ∧ (∃ t, step user = .next t) ∧ result (atPc 0x40#32 0xC0000000#32 user) ≠ .executed :=
  ⟨by decide, ⟨_, rfl⟩, by decide⟩

/-- RTI leaves the handler; a trap enters it. -/
theorem witness_InHandlerFromTrapEntryUntilRti :
    inHandler.status.inh = true ∧ (after (withWord 0 0xC8000000#32 inHandler)).status.inh = false ∧
    step (withWord 0 0xC8000000#32 inHandler) = .next (after (withWord 0 0xC8000000#32 inHandler)) ∧
    base.status.inh = false ∧ (after (withWord 0 0xC4008007#32 base)).status.inh = true ∧
    step (withWord 0 0xC4008007#32 base) = .next (after (withWord 0 0xC4008007#32 base)) := by
  refine ⟨by decide, by decide, rfl, by decide, by decide, rfl⟩

theorem witness_IrqLatchIsSetByInjectionAndClearedByVectoring :
    (∃ t, step pending = .next t ∧ t.irq = false) ∧ (∃ t, injectInterrupt .externalInterrupt base = some t) ∧
    Cause.divideByZero ≠ .externalInterrupt ∧ (loadImage [1#8] 0#32 base).isSome = true :=
  ⟨⟨_, rfl, by decide⟩, ⟨_, rfl⟩, by decide, by decide⟩

/-- The interrupt at user level (to supervisor), RTI to user level, and MTSR STATUS of 0. -/
theorem witness_PrivilegeChangesOnlyByItsTransitions :
    ((after (pending.atLevel false)).status.priv = true ∧ step (pending.atLevel false) = .next (after (pending.atLevel false))) ∧
    (let s := withWord 0 0xC8000000#32 { base with epc := 0x4#32 }
     (after s).status.priv = false ∧ step s = .next (after s)) ∧
    (let s := withWord 0 0xD0018000#32 base
     (after s).status.priv = false ∧ step s = .next (after s)) :=
  ⟨⟨by decide, rfl⟩, ⟨by decide, rfl⟩, ⟨by decide, rfl⟩⟩

/-- A step that traps in user mode, and the same with another record. -/
theorem witness_UserStepReadsNoSupervisorRecord :
    (atPc 0x40#32 0xC0000000#32 user).status.priv = false ∧ (∃ t, step (atPc 0x40#32 0xC0000000#32 user) = .next t) ∧
    ∃ u, step ((atPc 0x40#32 0xC0000000#32 user).withRecord true true 1#32 2#32 3#32 4#4) = .next u :=
  ⟨by decide, ⟨_, rfl⟩, ⟨_, rfl⟩⟩

theorem witness_ParametersAreConstant : (∃ t, step pending = .next t) ∧ ∃ t, exec (.swi 7#15) base = .next t := ⟨⟨_, rfl⟩, ⟨_, rfl⟩⟩

/-- A core with handlers, a loaded word and a pending interrupt satisfies the invariant and steps. -/
theorem witness_StepKeepsInvariant : (withWord 0 0xC4008007#32 base).Inv ∧ ∃ t, step (withWord 0 0xC4008007#32 base) = .next t :=
  ⟨⟨by decide, by decide, by decide, by decide, by decide⟩, ⟨_, rfl⟩⟩

theorem witness_ConstructionChecksAndResets : construct handlers = some base := by decide

/-- Bytes that end at the capacity fit; one byte more does not. -/
theorem witness_LoadImageCopiesBytes :
    Memory.wf base.cfg.memCapacity base.mem = true ∧ (loadImage [1#8, 0#8, 3#8] 0xFFFD#32 base).isSome = true ∧
    base.cfg.memCapacity < (0xFFFE#32 : Word).toNat + [1#8, 0#8, 3#8].length := by
  decide

theorem witness_HostCallsKeepInvariant :
    (withWord 0 0xC4008007#32 base).Inv ∧ (loadImage [1#8] 0xFFFF#32 (withWord 0 0xC4008007#32 base)).isSome = true ∧
    (injectInterrupt .externalInterrupt (withWord 0 0xC4008007#32 base)).isSome = true :=
  ⟨⟨by decide, by decide, by decide, by decide, by decide⟩, by decide, by decide⟩

theorem witness_HostReadsAreExact :
    ((3 : Nat) ≠ 1 ∧ (3 : Nat) ≠ 2 ∧ (3 : Nat) ≠ 4) ∧ base.cfg.memCapacity < (0xFFFD#32 : Word).toNat + 4 ∧
    (0xFFFA#32 : Word).toNat + 4 ≤ base.cfg.memCapacity ∧ (0xFFFA#32 : Word).toNat % 4 ≠ 0 ∧ AccessOk base 0xFFFC#32 4 := by
  decide

/-- A run that ends by its budget and one that ends by a halt; a halted core and a running one. -/
theorem witness_RunStopsByHaltOrBudget :
    (run 2 base).reason = .budgetExhausted ∧ (run 2 (withWord 0 0xC0000000#32 base)).reason = .halted (some .halt) ∧
    (haltWith .halt base).1.halted = true ∧ base.halted = false := by
  decide

/-- Lines at 0x10 at both ends of their ranges: targets in bounds, past the capacity, and (at a misaligned pc) misaligned. -/
theorem witness_AssembledTransfersReachTheirTarget :
    (atPc 0x10#32 0#32 base).pc = 0x10#32 ∧ assemble 0x10#32 (.bcc .ne 0x08) = some (.bne 0x3FFFFE#22) ∧
    condHolds .ne (atPc 0x10#32 0#32 base).flags = true ∧ AccessOk (atPc 0x10#32 0#32 base) (BitVec.ofInt 32 0x08) 4 ∧
    assemble 0x10#32 (.bcc .al (0x10 + 8388604)) = some (.bal 0x1FFFFF#22) ∧
    base.cfg.memCapacity < (BitVec.ofInt 32 (0x10 + 8388604)).toNat + 4 ∧
    assemble 0x10#32 (.bcc .eq 0x08) = some (.beq 0x3FFFFE#22) ∧ condHolds .eq (atPc 0x10#32 0#32 base).flags = false ∧
    assemble 0x12#32 (.bcc .ne 0x0A) = some (.bne 0x3FFFFE#22) ∧ bad 4 (BitVec.ofInt 32 0x0A) ∧
    assemble 0x10#32 (.jal 31#5 0xFFFC) = some (.jal 31#5 0x3FFB#21) ∧ AccessOk base (BitVec.ofInt 32 0xFFFC) 4 ∧
    assemble 0x10#32 (.jal 31#5 (0x10 - 4194304)) = some (.jal 31#5 0x100000#21) ∧
    base.cfg.memCapacity < (BitVec.ofInt 32 (0x10 - 4194304)).toNat + 4 ∧
    assemble 0x12#32 (.jal 31#5 0x0A) = some (.jal 31#5 0x1FFFFE#21) ∧
    assemble 0x10#32 (.jala 0#5 0xFFFC) = some (.jala 0#5 0x3FFF#21) ∧
    assemble 0x10#32 (.jala 0#5 0x7FFFFC) = some (.jala 0#5 0x1FFFFF#21) ∧
    base.cfg.memCapacity < (BitVec.ofInt 32 0x7FFFFC).toNat + 4 := by
  decide

/-- The one-word and the two-word expansion, the latter at both ends of its range. -/
theorem witness_LoadImmediateBuildsTheConstant :
    assemblePseudo 0#32 (.li 1#5 (-16384)) = some [.addI 1#5 0#5 0x4000#15] ∧
    assemblePseudo 0#32 (.li 1#5 (-2147483648)) = some [.lui 1#5 0x100000#21, .orI 1#5 1#5 0#15] ∧
    assemblePseudo 0#32 (.li 1#5 4294967295) = some [.lui 1#5 0x1FFFFF#21, .orI 1#5 1#5 0x7FF#15] := by
  decide

end Sys2Proof.Tests
end

/-! The statements about spec/10_state.md: the register file (R21) and the pending latch of the external interrupt (R39). -/

namespace Sys2Proof.Machine

/-! ### The register file -/

@[simp] theorem State.initial_reg (cfg : Config) (i : RegIdx) : (State.initial cfg).reg i = 0x00000000#32 := by
  unfold State.reg
  split
  · rfl
  · exact Vector.getElem_replicate _

/-- Settles O5, from what a register reads after a write to it, to another, and after reset. -/
theorem registerFileReadsLastWrite : Obligations.RegisterFileReadsLastWrite := by
  intro s i v
  exact ⟨s.reg_zero, s.setReg_zero v, s.reg_setReg_same v, fun _ => s.reg_setReg_of_ne v, fun cfg => State.initial_reg cfg i⟩

/-! ### Everything a step can do -/

/-- The shapes of one step (spec/60_exceptions.md R205): what settles it at the boundary, or the instruction that runs. -/
inductive StepShape (s : State) : State → Prop where
  | stays (halted : s.halted = true) : StepShape s s
  | haltsOnRequest (running : s.halted = false) (request : s.haltReq = true) :
      StepShape s (haltWith .externalHalt { s with haltReq := false }).1
  | vectorsInterrupt (running : s.halted = false) (noRequest : s.haltReq = false) (pending : s.irq = true)
      (enabled : s.status.ie = true) : StepShape s (vectorTrap trapExternal s.pc s).1
  | trapsOnFetch (tr : Trap) (running : s.halted = false) (noRequest : s.haltReq = false)
      (external : tr.cause ≠ .externalInterrupt) (double : tr.cause ≠ .doubleFault)
      (settled : boundary s = .settled (takeSync tr s)) : StepShape s (takeSync tr s).1
  | runs (i : Instr) (running : s.halted = false) (noRequest : s.haltReq = false) (fetched : boundary s = .run i) :
      StepShape s (applyEffect (execute i s)).1

theorem step_of_settled {s : State} {r : State × StepResult} (h : boundary s = .settled r) : step s = .next r.1 := by
  rw [step, h]

theorem step_of_run {s : State} {i : Instr} (h : boundary s = .run i) : step s = .next (applyEffect (execute i s)).1 := by
  rw [step, h]
  exact exec_eq_execute i s

/-- Every next state of a step has one of the shapes. -/
theorem step_shape {s t : State} (h : step s = .next t) : StepShape s t := by
  rcases boundary_cases s with ⟨hh, hb⟩ | ⟨hh, hr, hb⟩ | ⟨hh, hr, hi, he, hb⟩ | ⟨hh, hr, _, hfetch⟩
  · cases (step_of_settled hb).symm.trans h
    exact .stays hh
  · cases (step_of_settled hb).symm.trans h
    exact .haltsOnRequest hh hr
  · cases (step_of_settled hb).symm.trans h
    exact .vectorsInterrupt hh hr hi he
  · rcases hfetch with ⟨k, _, hb⟩ | ⟨_, _, _, hb⟩ | ⟨i, _, _, hb⟩
    · cases (step_of_settled hb).symm.trans h
      exact .trapsOnFetch _ hh hr (by simp [trapMemory]) (by simp [trapMemory]) hb
    · cases (step_of_settled hb).symm.trans h
      exact .trapsOnFetch _ hh hr (by simp [trapUndecoded]) (by simp [trapUndecoded]) hb
    · cases (step_of_run hb).symm.trans h
      exact .runs i hh hr hb

/-! ### The pending latch -/

/-- A synchronous trap leaves the latch, whether it is vectored or halts the core. -/
theorem takeSync_irq {tr : Trap} (s : State) (external : tr.cause ≠ .externalInterrupt) : (takeSync tr s).1.irq = s.irq := by
  rcases takeSync_state tr s with h | h | ⟨a, _, h⟩ <;> rw [h]
  · exact haltWith_irq _ s
  · exact haltWith_irq _ s
  · rw [enterHandler_irq, if_neg external]

/-- No instruction writes the latch: only its read through IPEND is encoded (spec/10_state.md R36). -/
theorem applyEffect_irq {i : Instr} {s : State} {r : State × Effect} (shape : EffectShape i s r) :
    (applyEffect r).1.irq = s.irq := by
  cases shape with
  | traps tr external _ => exact takeSync_irq s external
  | writesReg rd v => exact s.setReg_irq rd v
  | writesRegAndFlags rd v => exact s.setReg_irq rd v
  | links rd v => exact s.setReg_irq rd v
  | writesCsr c v => exact s.setCsr_irq c v
  | writesOnlyFlags | stores | jumps | halts | returns | writesNothing => rfl

/-- The two outcomes of vectoring, as states. -/
theorem vectorTrap_state (tr : Trap) (epc : Word) (s : State) :
    (VectorTable.handler s.cfg.vectors tr.cause = none ∧ (vectorTrap tr epc s).1 = (haltWith (.unhandled tr) s).1) ∨
    ∃ a, VectorTable.handler s.cfg.vectors tr.cause = some a ∧ (vectorTrap tr epc s).1 = enterHandler tr epc a s := by
  have hv : vectorTrap tr epc s = ((vectorTrap tr epc s).1, (vectorTrap tr epc s).2) := rfl
  rcases vectorTrap_cases hv with ⟨hn, h, _⟩ | ⟨a, ha, h, _⟩
  · exact .inl ⟨hn, h⟩
  · exact .inr ⟨a, ha, h⟩

/-- The external interrupt: unhandled it leaves the latch, vectored it clears the latch and enters its handler. -/
theorem vectorTrap_external_irq (s : State) :
    (vectorTrap trapExternal s.pc s).1.irq = s.irq ∨
    ((vectorTrap trapExternal s.pc s).1.irq = false ∧ ∃ h, s.cfg.vectors.externalInterrupt = some h ∧
      (vectorTrap trapExternal s.pc s).1.pc = h ∧ (vectorTrap trapExternal s.pc s).1.epc = s.pc) := by
  rcases vectorTrap_state trapExternal s.pc s with ⟨_, h⟩ | ⟨a, ha, h⟩ <;> rw [h]
  · exact .inl (haltWith_irq _ s)
  · exact .inr ⟨(enterHandler_irq _ _ a s).trans (if_pos rfl), a, ha, rfl, rfl⟩

/-- A step leaves the latch, or vectors the enabled interrupt and clears it. -/
theorem step_irq {s t : State} (h : step s = .next t) :
    t.irq = s.irq ∨ (s.irq = true ∧ s.status.ie = true ∧ t.irq = false ∧
      ∃ a, s.cfg.vectors.externalInterrupt = some a ∧ t.pc = a ∧ t.epc = s.pc) := by
  cases step_shape h with
  | stays => exact .inl rfl
  | haltsOnRequest => exact .inl rfl
  | vectorsInterrupt _ _ pending enabled => exact (vectorTrap_external_irq s).imp_right fun hv => ⟨pending, enabled, hv⟩
  | trapsOnFetch tr _ _ external => exact .inl (takeSync_irq s external)
  | runs i => exact .inl (applyEffect_irq (execute_shape i s))

@[simp] theorem injectInterrupt_external (s : State) :
    injectInterrupt .externalInterrupt s = some { s with irq := true } := if_pos rfl

theorem injectInterrupt_of_ne {c : Cause} (s : State) (h : c ≠ .externalInterrupt) : injectInterrupt c s = none := if_neg h

/-- Two injections leave the state that one leaves. -/
theorem injectInterrupt_twice {s t : State} (h : injectInterrupt .externalInterrupt s = some t) :
    injectInterrupt .externalInterrupt t = some t := by
  rw [injectInterrupt_external] at h
  cases h
  exact injectInterrupt_external _

theorem State.csr_ipend_toNat (s : State) : (s.csr .ipend).toNat = s.irq.toNat := by
  simp only [State.csr]
  cases s.irq <;> rfl

/-- A loaded image changes memory alone. -/
theorem loadImage_eq_some {bytes : List Byte} {origin : Word} {s t : State} (h : loadImage bytes origin s = some t) :
    origin.toNat + bytes.length ≤ s.cfg.memCapacity ∧ t = { s with mem := Memory.writeBytes s.mem origin.toNat bytes } := by
  unfold loadImage at h
  split at h
  · cases h
  · rename_i fits
    exact ⟨Nat.le_of_not_gt fits, (Option.some.inj h).symm⟩

theorem loadImage_irq {bytes : List Byte} {origin : Word} {s t : State} (h : loadImage bytes origin s = some t) :
    t.irq = s.irq := by
  obtain ⟨_, rfl⟩ := loadImage_eq_some h
  rfl

/-- Settles O49: of the shapes of a step, only the vectored external interrupt writes the latch. -/
theorem irqLatchIsSetByInjectionAndClearedByVectoring : Obligations.IrqLatchIsSetByInjectionAndClearedByVectoring :=
  ⟨fun _ => rfl, fun s =>
    ⟨injectInterrupt_external s, fun _ => injectInterrupt_of_ne s, fun _ => injectInterrupt_twice, s.csr_ipend_toNat, rfl,
      fun _ _ _ => loadImage_irq, fun _ => step_irq⟩⟩

end Sys2Proof.Machine

/-! The statement about spec/30_encoding.md: a reserved or ill-formed word at pc (R84, R85). -/

namespace Sys2Proof.Machine

/-! ### The fields of a word as numbers (spec/30_encoding.md R71-R75) -/

theorem fieldOp_toNat (w : Word) : (fieldOp w).toNat = w.toNat / 2 ^ 26 := by
  simp only [fieldOp, BitVec.extractLsb'_toNat, Nat.shiftRight_eq_div_pow]
  omega

theorem fieldRd_toNat (w : Word) : (fieldRd w).toNat = w.toNat / 2 ^ 21 % 32 := by
  simp [fieldRd, BitVec.extractLsb'_toNat, Nat.shiftRight_eq_div_pow]

theorem fieldRs1_toNat (w : Word) : (fieldRs1 w).toNat = w.toNat / 2 ^ 16 % 32 := by
  simp [fieldRs1, BitVec.extractLsb'_toNat, Nat.shiftRight_eq_div_pow]

theorem fieldM_toNat (w : Word) : (fieldM w).toNat = w.toNat / 2 ^ 15 % 2 := by
  simp [fieldM, BitVec.getLsbD, Nat.toNat_testBit]

theorem fieldImm15_toNat (w : Word) : (fieldImm15 w).toNat = w.toNat % 2 ^ 15 := by
  simp [fieldImm15, BitVec.extractLsb'_toNat]

theorem fieldCond_toNat (w : Word) : (fieldCond w).toNat = w.toNat / 2 ^ 22 % 16 := by
  simp [fieldCond, BitVec.extractLsb'_toNat, Nat.shiftRight_eq_div_pow]

theorem fieldLow10_toNat (w : Word) : (fieldLow10 w).toNat = w.toNat % 2 ^ 10 := by
  simp [fieldLow10, BitVec.extractLsb'_toNat]

theorem fieldLow26_toNat (w : Word) : (fieldLow26 w).toNat = w.toNat % 2 ^ 26 := by
  simp [fieldLow26, BitVec.extractLsb'_toNat]

/-! ### What the decoder rejects, by the clauses of spec/30_encoding.md R84 and R85 -/

/-- A reserved opcode, whatever the other fields hold (R84). -/
theorem decode_of_reserved {w : Word}
    (h : (0x24 ≤ (fieldOp w).toNat ∧ (fieldOp w).toNat ≤ 0x2F) ∨ 0x36 ≤ (fieldOp w).toNat) :
    decode w = .error .reservedOpcode := by
  have hop := (fieldOp w).isLt
  rcases h with ⟨hlo, hhi⟩ | hlo <;> interval_cases op : (fieldOp w).toNat <;>
    simp [decode, decodeBranch, decodeSystem, op]

/-- CMP and TST with a destination (R85). -/
theorem decode_of_flagOnlyDestination {w : Word} (op : (fieldOp w).toNat = 0x0D ∨ (fieldOp w).toNat = 0x0E)
    (rd : fieldRd w ≠ 0#5) : decode w = .error .flagOnlyDestination := by
  rcases op with op | op <;> simp [decode, decodeArith, op, rd]

/-- The opcodes of formats R and I: `RI()` of R89, but for the destination of CMP and TST. -/
theorem decode_of_takesRI {w : Word}
    (h : (fieldOp w).toNat ≤ 0x0E ∨ (0x10 ≤ (fieldOp w).toNat ∧ (fieldOp w).toNat ≤ 0x17) ∨ (fieldOp w).toNat = 0x22) :
    decode w = .error .flagOnlyDestination ∨ ∃ formR formI, decode w = decodeRI w formR formI := by
  rcases h with h | ⟨hlo, hhi⟩ | op
  · by_cases flagOnly : (fieldOp w).toNat = 0x0D ∨ (fieldOp w).toNat = 0x0E
    · by_cases rd : fieldRd w = 0#5
      · rcases flagOnly with op | op <;> simp only [decode, decodeArith, op, if_pos rd] <;> exact .inr ⟨_, _, rfl⟩
      · exact .inl (decode_of_flagOnlyDestination flagOnly rd)
    · have hle : (fieldOp w).toNat ≤ 0x0C := by omega
      interval_cases op : (fieldOp w).toNat <;> simp only [decode, decodeArith, op] <;> exact .inr ⟨_, _, rfl⟩
  · interval_cases op : (fieldOp w).toNat <;> simp only [decode, decodeMemory, op] <;> exact .inr ⟨_, _, rfl⟩
  · simp only [decode, decodeBranch, op]
    exact .inr ⟨_, _, rfl⟩

/-- Bits 9:0 of format R (R85). -/
theorem decodeRI_of_unusedBits {w : Word} (formR : RegIdx → Instr) (formI : BitVec 15 → Instr) (m : fieldM w = false)
    (low : fieldLow10 w ≠ 0#10) : decodeRI w formR formI = .error .unusedBits := by
  simp [decodeRI, m, low]

/-- Bcc with the reserved condition (R85, R91). -/
theorem decode_of_reservedCondition {w : Word} (op : (fieldOp w).toNat = 0x20) (cond : (fieldCond w).toNat = 15) :
    decode w = .error .reservedCondition := by
  simp [decode, decodeBranch, decodeBcc, op, cond]

/-- HALT, RTI and NOP with a bit of 25:0 set (R75, R85). -/
theorem decode_of_formatS_unusedBits {w : Word}
    (op : (fieldOp w).toNat = 0x30 ∨ (fieldOp w).toNat = 0x32 ∨ (fieldOp w).toNat = 0x35) (low : fieldLow26 w ≠ 0#26) :
    decode w = .error .unusedBits := by
  rcases op with op | op | op <;> simp [decode, decodeSystem, decodeS, op, low]

/-- SWI with another value in a fixed field (R79, R85). -/
theorem decode_of_swi_fixedField {w : Word} (op : (fieldOp w).toNat = 0x31)
    (fixed : ¬(fieldRd w = 0#5 ∧ fieldRs1 w = 0#5 ∧ fieldM w = true)) : decode w = .error .fixedField := by
  simp only [decode, decodeSystem, op, if_neg fixed]

theorem decode_of_mfsr {w : Word} (op : (fieldOp w).toNat = 0x33) : decode w = decodeMfsr w := by
  simp only [decode, decodeSystem, op]

theorem decode_of_mtsr {w : Word} (op : (fieldOp w).toNat = 0x34) : decode w = decodeMtsr w := by
  simp only [decode, decodeSystem, op]

/-- MFSR with another value in a fixed field, or a CSR number that does not exist (R85, R92). -/
theorem decodeMfsr_error {w : Word} (h : (fieldRs1 w = 0#5 ∧ fieldM w = true) → 6 < (fieldImm15 w).toNat) :
    ∃ e, decodeMfsr w = .error e := by
  unfold decodeMfsr
  split
  next fixed =>
    have csr := h fixed
    split
    case h_8 => exact ⟨_, rfl⟩
    all_goals omega
  next => exact ⟨_, rfl⟩

/-- MTSR with another value in a fixed field, or a CSR number that it cannot write (R85, R92). -/
theorem decodeMtsr_error {w : Word} (h : (fieldRd w = 0#5 ∧ fieldM w = true) → 5 < (fieldImm15 w).toNat) :
    ∃ e, decodeMtsr w = .error e := by
  unfold decodeMtsr
  split
  next fixed =>
    have csr := h fixed
    split
    case h_7 => exact ⟨_, rfl⟩
    all_goals omega
  next => exact ⟨_, rfl⟩

/-- A field is 0 as a number exactly when it is the zero field. -/
theorem field_toNat_eq_zero {n : Nat} {x : BitVec n} : x.toNat = 0 ↔ x = 0#n := by simp [← BitVec.toNat_inj]

/-- No illegal word decodes: each clause of `IllegalWord`, read in the decoder's fields, is rejected. -/
theorem decode_error_of_illegalWord {w : Word} (h : IllegalWord w) : ∃ e, decode w = .error e := by
  simp only [IllegalWord, ← fieldOp_toNat, ← fieldRd_toNat, ← fieldRs1_toNat, ← fieldM_toNat, ← fieldImm15_toNat,
    ← fieldCond_toNat, ← fieldLow10_toNat, ← fieldLow26_toNat, Bool.toNat_eq_zero, ne_eq, field_toNat_eq_zero] at h
  rcases h with h | h | ⟨ri, m, low⟩ | ⟨op, rd⟩ | ⟨op, cond⟩ | ⟨op, low⟩ | ⟨op, fixed⟩ | ⟨op, fixed⟩ | ⟨op, fixed⟩
  · exact ⟨_, decode_of_reserved (.inl h)⟩
  · exact ⟨_, decode_of_reserved (.inr h)⟩
  · rcases decode_of_takesRI ri with flagOnly | ⟨formR, formI, hRI⟩
    · exact ⟨_, flagOnly⟩
    · exact ⟨_, hRI.trans (decodeRI_of_unusedBits formR formI m low)⟩
  · exact ⟨_, decode_of_flagOnlyDestination op rd⟩
  · exact ⟨_, decode_of_reservedCondition op cond⟩
  · exact ⟨_, decode_of_formatS_unusedBits op low⟩
  · exact ⟨_, decode_of_swi_fixedField op (by grind)⟩
  · rw [decode_of_mfsr op]
    exact decodeMfsr_error (by grind)
  · rw [decode_of_mtsr op]
    exact decodeMtsr_error (by grind)

/-! ### The step on a word that does not decode -/

/-- Four bytes laid end to end, the last one most significant. -/
theorem wordOfBytes_eq_append (b0 b1 b2 b3 : Byte) : wordOfBytes b0 b1 b2 b3 = b3 ++ b2 ++ b1 ++ b0 := by
  apply BitVec.eq_of_getLsbD_eq
  intro i hi
  simp only [wordOfBytes, BitVec.getLsbD_append]
  interval_cases i <;> simp

/-- The word a fetch reads is the four bytes at pc, the lowest address least significant (spec/20_memory.md R55, R57). -/
theorem State.fetchWord_eq_append (s : State) :
    s.fetchWord = Memory.read s.mem (s.pc.toNat + 3) ++ Memory.read s.mem (s.pc.toNat + 2)
      ++ Memory.read s.mem (s.pc.toNat + 1) ++ Memory.read s.mem s.pc.toNat := by
  rw [State.fetchWord, State.memRead, Memory.readLE_four, wordOfBytes_eq_append]

/-- A running core whose fetch passes its check and reads a word that does not decode takes the trap of that word (R205, R213). -/
theorem step_of_undecoded {s : State} {e : DecodeError} (runs : Runs s) (access : AccessOk s s.pc 4)
    (undecoded : decode s.fetchWord = .error e) : step s = .next (takeSync (trapUndecoded s.fetchWord) s).1 := by
  obtain ⟨running, noRequest, masked⟩ := runs
  have passes : s.check s.pc 4 = none := checkAccess_eq_none.mpr access
  rcases boundary_cases s with ⟨halted, _⟩ | ⟨_, request, _⟩ | ⟨_, _, irq, ie, _⟩ | ⟨_, _, _, hfetch⟩
  · simp [running] at halted
  · simp [noRequest] at request
  · simp [masked irq] at ie
  · rcases hfetch with ⟨k, fails, _⟩ | ⟨_, _, _, settled⟩ | ⟨i, _, decoded, _⟩
    · simp [passes] at fails
    · exact step_of_settled settled
    · simp [undecoded] at decoded

/-- Settles O38: no illegal word decodes, so the step is the trap of the fetched word. -/
theorem illegalWordTraps : Obligations.IllegalWordTraps := by
  intro s w runs access illegal bytes
  have fetched : s.fetchWord = w := s.fetchWord_eq_append.trans bytes
  obtain ⟨e, he⟩ := decode_error_of_illegalWord illegal
  have taken : TrapTaken (trapUndecoded w) (trapUndecoded w).causeWord s (takeSync (trapUndecoded w) s).1 :=
    takeSync_taken s (by simp [trapUndecoded])
  obtain ⟨_, _, word, _⟩ := causeWords 0#32 w 0#15
  refine ⟨⟨e, he⟩, _, fetched ▸ step_of_undecoded runs access (fetched.symm ▸ he), ?_⟩
  exact word ▸ taken

end Sys2Proof.Machine

/-! The statements about spec/40_arithmetic.md: the operations of the arithmetic family (R103-R117), ADD aside. -/

namespace Sys2Proof.Machine

/-! ### What a completed instruction leaves (spec/60_exceptions.md R207) -/

/-- A register write is what the statements say of it, register 0 included. -/
theorem State.setReg_wroteReg (s : State) (rd : RegIdx) (v : Word) : WroteReg rd v s (s.setReg rd v) :=
  ⟨by rw [s.reg_setReg, if_pos rfl], fun _ => s.reg_setReg_of_ne v⟩

/-- One register written, then the next instruction. -/
theorem setReg_next_done (s : State) (rd : RegIdx) (v : Word) :
    MoveDone rd v (s.pc + 4#32) s (applyEffect (s.setReg rd v, .next)).1 where
  reg := s.setReg_wroteReg rd v
  flags := s.setReg_flags rd v
  pc := congrArg (· + 4#32) (s.setReg_pc rd v)
  control := by constructor <;> simp [applyEffect]
  mem := by simp [SameMemory, applyEffect]

/-- One register and the flags written, then the next instruction: nothing else differs from a register written alone. -/
theorem setReg_setFlags_next_done (s : State) (rd : RegIdx) (v : Word) (g : Flags) :
    ArithDone rd v g s (applyEffect ((s.setReg rd v).setFlags g, .next)).1 :=
  have move := setReg_next_done s rd v
  { reg := move.reg, flags := rfl, pc := move.pc, control := { move.control with }, mem := move.mem }

/-- The flags written, then the next instruction. -/
theorem setFlags_next_done (s : State) (g : Flags) : FlagsDone g s (applyEffect (s.setFlags g, .next)).1 where
  regs _ := rfl
  flags := rfl
  pc := rfl
  control := by constructor <;> rfl
  mem _ := rfl

/-! ### The shared shapes of the family (spec/40_arithmetic.md R100, R111, R115) -/

section
variable {f : Word → Word → Word × Flags} {rd rs1 : RegIdx} {src : Src2} {s : State} {v : Word} {g : Flags}

/-- An operation whose result and flags on its operands are `v` and `g`. -/
theorem arith_done (law : f (s.reg rs1) (s.src2 src) = (v, g)) :
    ArithDone rd v g s (applyEffect (arith f rd rs1 src s)).1 := by
  rw [arith, law]
  exact setReg_setFlags_next_done s rd v g

/-- The same operation with its result dropped. -/
theorem flagsOnly_done (law : f (s.reg rs1) (s.src2 src) = (v, g)) :
    FlagsDone g s (applyEffect (flagsOnly f rs1 src s)).1 := by
  rw [flagsOnly, law]
  exact setFlags_next_done s g

/-- The DivideByZero trap, its record written out (R111). -/
theorem trapDivide_taken (s : State) :
    TrapTaken ⟨.divideByZero, 0#8, 0#32⟩ 0x00000003#32 s (applyEffect (s, .trap trapDivide)).1 := by
  obtain ⟨_, _, _, _, causeWord, _⟩ := causeWords 0#32 0#32 0#15
  exact causeWord ▸ takeSync_taken (tr := trapDivide) s (by decide)

/-- A division: the operation on a divisor other than 0, the trap on a divisor 0. -/
theorem divide_divideCases {i : Instr} (run : execute i s = divide f rd rs1 src s)
    (law : f (s.reg rs1) (s.src2 src) = (v, g)) : DivideCases i (s.src2 src) s (ArithDone rd v g s) := by
  unfold DivideCases
  rw [exec_eq_execute, run]
  rcases divide_cases (r := divide f rd rs1 src s) rfl with ⟨nonzero, result⟩ | ⟨zero, traps⟩
  · exact ⟨fun _ => ⟨_, rfl, result ▸ arith_done law⟩, fun zero => absurd zero nonzero⟩
  · exact ⟨fun nonzero => absurd zero nonzero, fun _ => ⟨_, rfl, traps ▸ trapDivide_taken s⟩⟩

end

/-! ### The rows of the opcode table -/

/-- The register and the immediate form of the opcode `op` have its words and run `eff` on their second operand
(spec/30_encoding.md R72, R73, R76). -/
structure FormsRun (op : BitVec 6) (formR : RegIdx → RegIdx → RegIdx → Instr) (formI : RegIdx → RegIdx → BitVec 15 → Instr)
    (eff : RegIdx → RegIdx → Src2 → State → State × Effect) : Prop where
  encodeR (rd rs1 rs2 : RegIdx) : encode (formR rd rs1 rs2) = formatR op rd rs1 rs2
  encodeI (rd rs1 : RegIdx) (imm15 : BitVec 15) : encode (formI rd rs1 imm15) = formatI op rd rs1 imm15
  runR (rd rs1 rs2 : RegIdx) (s : State) : execute (formR rd rs1 rs2) s = eff rd rs1 (.reg rs2) s
  runI (rd rs1 : RegIdx) (imm15 : BitVec 15) (s : State) : execute (formI rd rs1 imm15) s = eff rd rs1 (.imm imm15) s

/-- The same for an opcode that writes only flags: its rd field is 0 (spec/30_encoding.md R85). -/
structure FlagFormsRun (op : BitVec 6) (formR : RegIdx → RegIdx → Instr) (formI : RegIdx → BitVec 15 → Instr)
    (eff : RegIdx → Src2 → State → State × Effect) : Prop where
  encodeR (rs1 rs2 : RegIdx) : encode (formR rs1 rs2) = formatR op 0#5 rs1 rs2
  encodeI (rs1 : RegIdx) (imm15 : BitVec 15) : encode (formI rs1 imm15) = formatI op 0#5 rs1 imm15
  runR (rs1 rs2 : RegIdx) (s : State) : execute (formR rs1 rs2) s = eff rs1 (.reg rs2) s
  runI (rs1 : RegIdx) (imm15 : BitVec 15) (s : State) : execute (formI rs1 imm15) s = eff rs1 (.imm imm15) s

/-! Each row by its opcode and its operation; the encoder and `execute` compute on it. -/

theorem subForms : FormsRun 0x01#6 .subR .subI (arith aluSub) := by constructor <;> intros <;> rfl
theorem andForms : FormsRun 0x02#6 .andR .andI (arith aluAnd) := by constructor <;> intros <;> rfl
theorem orForms : FormsRun 0x03#6 .orR .orI (arith aluOr) := by constructor <;> intros <;> rfl
theorem xorForms : FormsRun 0x04#6 .xorR .xorI (arith aluXor) := by constructor <;> intros <;> rfl
theorem shlForms : FormsRun 0x05#6 .shlR .shlI (arith aluShl) := by constructor <;> intros <;> rfl
theorem shrForms : FormsRun 0x06#6 .shrR .shrI (arith aluShr) := by constructor <;> intros <;> rfl
theorem sarForms : FormsRun 0x07#6 .sarR .sarI (arith aluSar) := by constructor <;> intros <;> rfl
theorem mulForms : FormsRun 0x08#6 .mulR .mulI (arith aluMul) := by constructor <;> intros <;> rfl
theorem divForms : FormsRun 0x09#6 .divR .divI (divide aluDiv) := by constructor <;> intros <;> rfl
theorem divuForms : FormsRun 0x0A#6 .divuR .divuI (divide aluDivu) := by constructor <;> intros <;> rfl
theorem remForms : FormsRun 0x0B#6 .remR .remI (divide aluRem) := by constructor <;> intros <;> rfl
theorem remuForms : FormsRun 0x0C#6 .remuR .remuI (divide aluRemu) := by constructor <;> intros <;> rfl
theorem cmpForms : FlagFormsRun 0x0D#6 .cmpR .cmpI (flagsOnly aluSub) := by constructor <;> intros <;> rfl
theorem tstForms : FlagFormsRun 0x0E#6 .tstR .tstI (flagsOnly aluAnd) := by constructor <;> intros <;> rfl

section
variable {op : BitVec 6} {formR : RegIdx → RegIdx → RegIdx → Instr} {formI : RegIdx → RegIdx → BitVec 15 → Instr}
  {flagR : RegIdx → RegIdx → Instr} {flagI : RegIdx → BitVec 15 → Instr} {f : Word → Word → Word × Flags}
  {v : Word → Word → Word} {g : Word → Word → Flags}

/-- Both forms of an operation complete with the result and flags that its law gives. -/
theorem FormsRun.bothForms (forms : FormsRun op formR formI (arith f)) (law : ∀ a b, f a b = (v a b, g a b)) :
    BothForms op formR formI fun rd a b s t => ArithDone rd (v a b) (g a b) s t := fun rd rs1 s =>
  ⟨fun rs2 => ⟨forms.encodeR rd rs1 rs2, _, exec_eq_execute _ s, forms.runR rd rs1 rs2 s ▸ arith_done (law _ _)⟩,
    fun imm15 => ⟨forms.encodeI rd rs1 imm15, _, exec_eq_execute _ s, forms.runI rd rs1 imm15 s ▸ arith_done (law _ _)⟩⟩

/-- Both forms of a flag-only operation complete with the flags that its law gives. -/
theorem FlagFormsRun.bothFlagForms (forms : FlagFormsRun op flagR flagI (flagsOnly f))
    (law : ∀ a b, f a b = (v a b, g a b)) : BothFlagForms op flagR flagI fun a b s t => FlagsDone (g a b) s t := fun rs1 s =>
  ⟨fun rs2 => ⟨forms.encodeR rs1 rs2, _, exec_eq_execute _ s, forms.runR rs1 rs2 s ▸ flagsOnly_done (law _ _)⟩,
    fun imm15 => ⟨forms.encodeI rs1 imm15, _, exec_eq_execute _ s, forms.runI rs1 imm15 s ▸ flagsOnly_done (law _ _)⟩⟩

/-- Both forms of a division complete with the result and flags that its law gives, or trap. -/
theorem FormsRun.bothDivideForms (forms : FormsRun op formR formI (divide f)) (law : ∀ a b, f a b = (v a b, g a b)) :
    BothDivideForms op formR formI fun rd a b s t => ArithDone rd (v a b) (g a b) s t := fun rd rs1 s =>
  ⟨fun rs2 => ⟨forms.encodeR rd rs1 rs2, divide_divideCases (forms.runR rd rs1 rs2 s) (law _ _)⟩,
    fun imm15 => ⟨forms.encodeI rd rs1 imm15, divide_divideCases (forms.runI rd rs1 imm15 s) (law _ _)⟩⟩

end

/-! ### The statements -/

/-- Settles O7: SUB writes what `aluSub` gives, CMP its flags alone. -/
theorem subAndCompareResult : Obligations.SubAndCompareResult :=
  ⟨subForms.bothForms aluSub_eq, cmpForms.bothFlagForms aluSub_eq⟩

/-- Settles O10: all four are one bitwise result with the flags of `aluLogic`. -/
theorem bitwiseResults : Obligations.BitwiseResults :=
  ⟨andForms.bothForms fun a b => aluLogic_eq (a &&& b), orForms.bothForms fun a b => aluLogic_eq (a ||| b),
    xorForms.bothForms fun a b => aluLogic_eq (a ^^^ b), tstForms.bothFlagForms fun a b => aluLogic_eq (a &&& b)⟩

/-- Settles O11, by the laws of the three shifts. -/
theorem shiftResults : Obligations.ShiftResults :=
  ⟨shlForms.bothForms aluShl_eq, shrForms.bothForms aluShr_eq, sarForms.bothForms aluSar_eq⟩

/-- Settles O12, by the law of the multiplication. -/
theorem mulResult : Obligations.MulResult := mulForms.bothForms aluMul_eq

/-- Settles O13: a divisor other than 0 runs the operation, a divisor 0 takes the trap. -/
theorem divisionResults : Obligations.DivisionResults :=
  ⟨divForms.bothDivideForms aluDiv_eq, divuForms.bothDivideForms aluDivu_eq, remForms.bothDivideForms aluRem_eq,
    remuForms.bothDivideForms aluRemu_eq⟩

/-- LUI's immediate as a number: the shift by 11 drops no bit (spec/40_arithmetic.md R117). -/
theorem luiImm_eq (imm21 : BitVec 21) : luiImm imm21 = BitVec.ofNat 32 (imm21.toNat * 2048) := by
  have bound := imm21.isLt
  apply BitVec.eq_of_toNat_eq
  simp only [luiImm, BitVec.toNat_shiftLeft, BitVec.toNat_setWidth, BitVec.toNat_ofNat, Nat.shiftLeft_eq]
  omega

/-- Settles O15: LUI writes its immediate to one register. -/
theorem luiResult : Obligations.LuiResult := fun rd imm21 s =>
  ⟨rfl, _, exec_eq_execute _ s, luiImm_eq imm21 ▸ setReg_next_done s rd (luiImm imm21)⟩

end Sys2Proof.Machine

/-! The statements about spec/41_memory_ops.md: the loads and the stores (R132-R147). -/

namespace Sys2Proof.Machine

/-! ### An access that passes its check, or its MemoryFault (spec/20_memory.md R53, R54) -/

/-- The MemoryFault trap, its record written out by the kind of the failure. -/
theorem trapMemory_taken (k : FaultKind) (ea : Word) (s : State) :
    TrapTaken (trapMemory k ea) (trapMemory k ea).causeWord s (applyEffect (s, .trap (trapMemory k ea))).1 :=
  takeSync_taken s (by simp [trapMemory])

/-- An instruction that completes past the check, or raises the failure of the check, has the cases that the statements list. -/
theorem accessCases_of_check {i : Instr} {s : State} {ea : Word} {n : Nat} {Done : State → Prop}
    (outcome : (s.check ea n = none ∧ Done (applyEffect (execute i s)).1) ∨
      ∃ k, s.check ea n = some k ∧ execute i s = (s, .trap (trapMemory k ea))) : AccessCases i s ea n Done := by
  have completes (passes : s.check ea n = none) : Done (applyEffect (execute i s)).1 := by
    rcases outcome with ⟨_, completed⟩ | ⟨k, fails, _⟩
    · exact completed
    · simp [passes] at fails
  have taken (k : FaultKind) (fails : s.check ea n = some k) :
      TrapTaken (trapMemory k ea) (trapMemory k ea).causeWord s (applyEffect (execute i s)).1 := by
    rcases outcome with ⟨passes, _⟩ | ⟨k', fails', raised⟩
    · simp [passes] at fails
    · cases fails.symm.trans fails'
      exact raised ▸ trapMemory_taken k ea s
  obtain ⟨outOfBounds, misaligned, _⟩ := causeWords ea 0#32 0#15
  refine ⟨fun ok => ⟨_, exec_eq_execute i s, completes (checkAccess_eq_none.mpr ok)⟩,
    fun past => ⟨_, exec_eq_execute i s, ?_⟩, fun inside unaligned => ⟨_, exec_eq_execute i s, ?_⟩⟩
  · exact outOfBounds ▸ taken .outOfBounds (checkAccess_eq_outOfBounds.mpr past)
  · exact misaligned ▸ taken .misaligned (checkAccess_eq_misaligned.mpr ⟨inside, unaligned⟩)

/-! ### One load and one store (spec/41_memory_ops.md R131) -/

/-- Bytes written in a canonical memory, then the next instruction. -/
theorem memWrite_next_done {s : State} {ea : Word} {n : Nat} (v : Word) (canonical : Memory.wf s.cfg.memCapacity s.mem = true)
    (inside : ea.toNat + n ≤ s.cfg.memCapacity) : StoreDone ea n v s (applyEffect (s.memWrite ea n v, .next)).1 where
  stored _ hk := Memory.read_writeLE_inside v canonical inside hk
  others _ outside := Memory.read_writeLE_of_outside s.mem ea.toNat v outside
  regs _ := rfl
  flags := rfl
  pc := rfl
  control := by constructor <;> rfl

section
variable {i : Instr} {w : Width} {rd : RegIdx} {addr : MemAddr} {s : State}

/-- A load whose extended bytes are `value` of the memory and the address. -/
theorem load_accessCases {e : Ext} {value : Memory → Nat → Word} (run : execute i s = load w e rd addr s)
    (law : ∀ m a, extend w e (Memory.readLE m a (Width.bytes w)) = value m a) :
    AccessCases i s (s.ea addr) (Width.bytes w) (LoadDone value rd (s.ea addr) s) := by
  refine accessCases_of_check ((load_cases run.symm).imp_left fun ⟨passes, result⟩ => ⟨passes, ?_⟩)
  rw [result, State.memRead, law]
  exact setReg_next_done s rd _

/-- A store in a canonical memory: the bound that the check gives keeps every byte it writes below the capacity. -/
theorem store_accessCases (canonical : Memory.wf s.cfg.memCapacity s.mem = true) (run : execute i s = store w rd addr s) :
    AccessCases i s (s.ea addr) (Width.bytes w) (StoreDone (s.ea addr) (Width.bytes w) (s.reg rd) s) := by
  refine accessCases_of_check ((store_cases run.symm).imp_left fun ⟨passes, result⟩ => ⟨passes, ?_⟩)
  obtain ⟨inside, _⟩ := checkAccess_eq_none.mp passes
  rw [result]
  exact memWrite_next_done (s.reg rd) canonical inside

end

/-! ### The values of the loads (spec/41_memory_ops.md R132-R136) -/

/-- What a narrow read widens, its extension cuts back unchanged. -/
theorem extractLsb'_setWidth_of_le {n m : Nat} (x : BitVec n) (h : n ≤ m) : (x.setWidth m).extractLsb' 0 n = x := by
  rw [← BitVec.setWidth_eq_extractLsb' h, BitVec.setWidth_setWidth_of_le x h, BitVec.setWidth_eq]

theorem extend_byte_sign (m : Memory) (a : Nat) :
    extend .byte .sign (Memory.readLE m a 1) = (Memory.read m a).signExtend 32 := by
  rw [Memory.readLE_one, extend, extractLsb'_setWidth_of_le _ (by decide)]

theorem extend_byte_zero (m : Memory) (a : Nat) :
    extend .byte .zero (Memory.readLE m a 1) = (Memory.read m a).setWidth 32 := by
  rw [Memory.readLE_one, extend, extractLsb'_setWidth_of_le _ (by decide)]

theorem extend_half_sign (m : Memory) (a : Nat) :
    extend .half .sign (Memory.readLE m a 2) = (Memory.read m (a + 1) ++ Memory.read m a).signExtend 32 := by
  rw [Memory.readLE_two, extend, extractLsb'_setWidth_of_le _ (by decide)]

theorem extend_half_zero (m : Memory) (a : Nat) :
    extend .half .zero (Memory.readLE m a 2) = (Memory.read m (a + 1) ++ Memory.read m a).setWidth 32 := by
  rw [Memory.readLE_two, extend, extractLsb'_setWidth_of_le _ (by decide)]

theorem extend_word_none (m : Memory) (a : Nat) :
    extend .word .none (Memory.readLE m a 4) =
      Memory.read m (a + 3) ++ Memory.read m (a + 2) ++ Memory.read m (a + 1) ++ Memory.read m a := by
  rw [Memory.readLE_four, extend, wordOfBytes_eq_append]

/-! ### The rows of the opcode table -/

/-- The register and the immediate form of the opcode `op` and the absolute form of `opAbs` have their words and run `eff` on their
address (spec/30_encoding.md R72-R74, spec/41_memory_ops.md R130). -/
structure AddressFormsRun (op opAbs : BitVec 6) (formR : RegIdx → RegIdx → RegIdx → Instr)
    (formI : RegIdx → RegIdx → BitVec 15 → Instr) (formU : RegIdx → BitVec 21 → Instr)
    (eff : RegIdx → MemAddr → State → State × Effect) : Prop where
  encodeR (rd rs1 rs2 : RegIdx) : encode (formR rd rs1 rs2) = formatR op rd rs1 rs2
  encodeI (rd rs1 : RegIdx) (imm15 : BitVec 15) : encode (formI rd rs1 imm15) = formatI op rd rs1 imm15
  encodeU (rd : RegIdx) (imm21 : BitVec 21) : encode (formU rd imm21) = formatU opAbs rd imm21
  runR (rd rs1 rs2 : RegIdx) (s : State) : execute (formR rd rs1 rs2) s = eff rd (.base rs1 (.reg rs2)) s
  runI (rd rs1 : RegIdx) (imm15 : BitVec 15) (s : State) : execute (formI rd rs1 imm15) s = eff rd (.base rs1 (.imm imm15)) s
  runU (rd : RegIdx) (imm21 : BitVec 21) (s : State) : execute (formU rd imm21) s = eff rd (.abs imm21) s

/-! Each row by its opcodes, its width and its extension; the encoder and `execute` compute on it. -/

theorem ldbForms : AddressFormsRun 0x10#6 0x18#6 .ldbR .ldbI .ldba (load .byte .sign) := by constructor <;> intros <;> rfl
theorem ldbuForms : AddressFormsRun 0x11#6 0x19#6 .ldbuR .ldbuI .ldbua (load .byte .zero) := by constructor <;> intros <;> rfl
theorem ldhForms : AddressFormsRun 0x12#6 0x1A#6 .ldhR .ldhI .ldha (load .half .sign) := by constructor <;> intros <;> rfl
theorem ldhuForms : AddressFormsRun 0x13#6 0x1B#6 .ldhuR .ldhuI .ldhua (load .half .zero) := by constructor <;> intros <;> rfl
theorem ldwForms : AddressFormsRun 0x14#6 0x1C#6 .ldwR .ldwI .ldwa (load .word .none) := by constructor <;> intros <;> rfl
theorem stbForms : AddressFormsRun 0x15#6 0x1D#6 .stbR .stbI .stba (store .byte) := by constructor <;> intros <;> rfl
theorem sthForms : AddressFormsRun 0x16#6 0x1E#6 .sthR .sthI .stha (store .half) := by constructor <;> intros <;> rfl
theorem stwForms : AddressFormsRun 0x17#6 0x1F#6 .stwR .stwI .stwa (store .word) := by constructor <;> intros <;> rfl

section
variable {op opAbs : BitVec 6} {formR : RegIdx → RegIdx → RegIdx → Instr} {formI : RegIdx → RegIdx → BitVec 15 → Instr}
  {formU : RegIdx → BitVec 21 → Instr} {eff : RegIdx → MemAddr → State → State × Effect} {w : Width}

/-- What every instruction that runs `eff` does at its address, each of the three forms does at its own. -/
theorem AddressFormsRun.addressForms {n : Nat} {Done : RegIdx → Word → State → State → Prop} {s : State}
    (forms : AddressFormsRun op opAbs formR formI formU eff)
    (access : ∀ i rd addr, execute i s = eff rd addr s → AccessCases i s (s.ea addr) n (Done rd (s.ea addr) s)) :
    AddressForms op opAbs n formR formI formU Done s := fun rd =>
  ⟨fun rs1 rs2 => ⟨forms.encodeR rd rs1 rs2, access _ rd (.base rs1 (.reg rs2)) (forms.runR rd rs1 rs2 s)⟩,
    fun rs1 imm15 => ⟨forms.encodeI rd rs1 imm15, access _ rd (.base rs1 (.imm imm15)) (forms.runI rd rs1 imm15 s)⟩,
    fun imm21 => ⟨forms.encodeU rd imm21, access _ rd (.abs imm21) (forms.runU rd imm21 s)⟩⟩

/-- The three forms of a load, by the law of its value. -/
theorem AddressFormsRun.loadForms {e : Ext} {value : Memory → Nat → Word}
    (forms : AddressFormsRun op opAbs formR formI formU (load w e))
    (law : ∀ m a, extend w e (Memory.readLE m a (Width.bytes w)) = value m a) (s : State) :
    AddressForms op opAbs (Width.bytes w) formR formI formU (LoadDone value) s :=
  forms.addressForms fun _ _ _ run => load_accessCases run law

/-- The three forms of a store in a canonical memory. -/
theorem AddressFormsRun.storeForms {s : State} (forms : AddressFormsRun op opAbs formR formI formU (store w))
    (canonical : Memory.wf s.cfg.memCapacity s.mem = true) :
    AddressForms op opAbs (Width.bytes w) formR formI formU (fun rd ea s => StoreDone ea (Width.bytes w) (s.reg rd) s) s :=
  forms.addressForms fun _ _ _ run => store_accessCases canonical run

end

/-! ### The statements -/

/-- Settles O16: each row is one load, with the value its width and extension give. -/
theorem narrowLoadResults : Obligations.NarrowLoadResults := fun s =>
  ⟨ldbForms.loadForms extend_byte_sign s, ldbuForms.loadForms extend_byte_zero s, ldhForms.loadForms extend_half_sign s,
    ldhuForms.loadForms extend_half_zero s⟩

/-- Settles O17: the load of a word takes its four bytes as they are. -/
theorem wordLoadResults : Obligations.WordLoadResults := ldwForms.loadForms extend_word_none

/-- Settles O18: each row is one store of its width. -/
theorem storeResults : Obligations.StoreResults := fun _ canonical =>
  ⟨stbForms.storeForms canonical, sthForms.storeForms canonical, stwForms.storeForms canonical⟩

end Sys2Proof.Machine

/-! The statements about spec/42_branch.md: the conditional branches (R162) and the jumps with link (R163-R165). -/

namespace Sys2Proof.Machine

/-! ### The targets (spec/30_encoding.md R77, R78) -/

/-- An offset in words is the offset in bytes that the statements write. -/
theorem shiftLeft_two_eq_mul (x : Word) : x <<< 2 = x * 4#32 := (BitVec.mul_twoPow_eq_shiftLeft x 2).symm

theorem bccTarget_eq (pc : Word) (imm22 : BitVec 22) : bccTarget pc imm22 = pc + imm22.signExtend 32 * 4#32 :=
  congrArg (pc + ·) (shiftLeft_two_eq_mul _)

theorem jalTarget_eq (pc : Word) (imm21 : BitVec 21) : jalTarget pc imm21 = pc + imm21.signExtend 32 * 4#32 :=
  congrArg (pc + ·) (shiftLeft_two_eq_mul _)

theorem jalaTarget_eq (imm21 : BitVec 21) : jalaTarget imm21 = imm21.setWidth 32 * 4#32 := shiftLeft_two_eq_mul _

/-! ### One transfer (spec/42_branch.md R160) -/

/-- One register written, then a jump: only pc differs from the same write before the next instruction. -/
theorem setReg_jump_done (s : State) (rd : RegIdx) (v target : Word) :
    MoveDone rd v target s { s.setReg rd v with pc := target } :=
  have move := setReg_next_done s rd v
  { reg := move.reg, flags := move.flags, pc := rfl, control := { move.control with }, mem := move.mem }

section
variable {i : Instr} {s : State} {target : Word}

/-- A transfer reaches a good target with what it wrote before the jump, or raises the MemoryFault of a bad one. -/
theorem transfer_accessCases {s' : State} {Done : State → Prop} (run : execute i s = transfer target s s')
    (completed : Done { s' with pc := target }) : AccessCases i s target 4 Done :=
  accessCases_of_check ((transfer_cases run.symm).imp_left fun ⟨passes, result⟩ => ⟨passes, result ▸ completed⟩)

/-- A jump with link: the link is a register write before the jump. -/
theorem jumpAndLink_linkCases {rd : RegIdx} (run : execute i s = jumpAndLink rd target s) : LinkCases i rd target s :=
  transfer_accessCases run (setReg_jump_done s rd (s.pc + 4#32) target)

end

/-! ### The conditional branches (spec/42_branch.md R162) -/

theorem eq_assembleBcc_of_bccForm {i : Instr} {c : Cond} {imm22 : BitVec 22} (form : bccForm i = some (c, imm22)) :
    i = assembleBcc c imm22 := by
  unfold bccForm at form
  split at form <;> cases form <;> rfl

section
variable (c : Cond) (imm22 : BitVec 22) (s : State)

theorem encode_assembleBcc : encode (assembleBcc c imm22) = formatB 0x20#6 (condNumber c) imm22 := by
  cases c <;> rfl

theorem execute_assembleBcc : execute (assembleBcc c imm22) s = effBcc c imm22 s := by
  cases c <;> rfl

end

section
variable {c : Cond} {s : State}

/-- A branch not taken goes on, with no check of its target. -/
theorem exec_assembleBcc_of_not_taken (imm22 : BitVec 22) (notTaken : condHolds c s.flags = false) :
    exec (assembleBcc c imm22) s = .next { s with pc := s.pc + 4#32 } := by
  rw [exec_eq_execute, execute_assembleBcc, effBcc, notTaken]
  rfl

/-- A branch taken is a transfer with nothing written before the jump. -/
theorem assembleBcc_accessCases_of_taken (imm22 : BitVec 22) (taken : condHolds c s.flags = true) :
    AccessCases (assembleBcc c imm22) s (bccTarget s.pc imm22) 4 fun t => t = { s with pc := bccTarget s.pc imm22 } := by
  have run : execute (assembleBcc c imm22) s = transfer (bccTarget s.pc imm22) s s := by
    rw [execute_assembleBcc, effBcc, if_pos taken]
  exact transfer_accessCases run rfl

end

/-! ### The statements -/

/-- Settles O20: every conditional branch is the row of its condition, and that row goes on or transfers as its condition says. -/
theorem conditionalBranchResult : Obligations.ConditionalBranchResult := by
  intro i c imm22 s form
  obtain rfl := eq_assembleBcc_of_bccForm form
  exact ⟨encode_assembleBcc c imm22, exec_assembleBcc_of_not_taken imm22, fun taken =>
    bccTarget_eq s.pc imm22 ▸ assembleBcc_accessCases_of_taken imm22 taken⟩

/-- Settles O21: each row is one jump with link, to the target its operands give. -/
theorem jumpAndLinkResult : Obligations.JumpAndLinkResult := fun _ s =>
  ⟨fun imm21 => ⟨rfl, jalTarget_eq s.pc imm21 ▸ jumpAndLink_linkCases rfl⟩,
    fun _ _ => ⟨rfl, jumpAndLink_linkCases rfl⟩,
    fun _ _ => ⟨rfl, jumpAndLink_linkCases rfl⟩,
    fun imm21 => ⟨rfl, jalaTarget_eq imm21 ▸ jumpAndLink_linkCases rfl⟩⟩

end Sys2Proof.Machine

/-! The statements about spec/43_system.md: the privilege check (R180), HALT, SWI and RTI (R181-R183), MFSR and MTSR (R184, R185) and
NOP (R186). -/

namespace Sys2Proof.Machine

/-! ### The privilege check (spec/43_system.md R180) -/

section
variable {i : Instr} {c : Csr} {w : Word} {s : State} {rest : State × Effect}

theorem requireSupervisor_of_supervisor (supervisor : s.status.priv = true) : requireSupervisor w s rest = rest :=
  if_pos supervisor

theorem requireSupervisor_of_user (user : s.status.priv = false) :
    requireSupervisor w s rest = (s, .trap (trapPrivilege w)) :=
  if_neg (by simp [user])

theorem requireForCsr_of_allowed (allowed : c = .flags ∨ s.status.priv = true) : requireForCsr c w s rest = rest := by
  unfold requireForCsr
  split
  · rfl
  · next other => exact requireSupervisor_of_supervisor (allowed.resolve_left other)

/-- The privilege trap, its record written out. -/
theorem trapPrivilege_taken (w : Word) (s : State) :
    TrapTaken ⟨.illegalOpcode, 1#8, w⟩ 0x00000101#32 s (applyEffect (s, .trap (trapPrivilege w))).1 := by
  obtain ⟨_, _, _, causeWord, _⟩ := causeWords 0#32 w 0#15
  exact causeWord ▸ takeSync_taken (tr := trapPrivilege w) s (by simp [trapPrivilege])

/-- The privileged instructions check the level, with their own word, before anything else. -/
theorem execute_of_privileged (h : privileged i = true) (s : State) :
    ∃ rest, execute i s = requireSupervisor (encode i) s rest := by
  unfold privileged at h
  split at h
  case h_14 => cases h
  all_goals exact ⟨_, rfl⟩

theorem trapsInUserMode_of_privileged (h : privileged i = true) (s : State) : TrapsInUserMode i s := by
  intro user
  obtain ⟨rest, run⟩ := execute_of_privileged h s
  rw [exec_eq_execute, run, requireSupervisor_of_user user]
  exact ⟨_, rfl, trapPrivilege_taken (encode i) s⟩

end

/-! ### What is not privileged does not see the level -/

section
variable (s : State) (level : Bool)

@[simp] theorem State.atLevel_reg (i : RegIdx) : (s.atLevel level).reg i = s.reg i := rfl

@[simp] theorem State.atLevel_pc : (s.atLevel level).pc = s.pc := rfl

@[simp] theorem State.atLevel_src2 (src : Src2) : (s.atLevel level).src2 src = s.src2 src := rfl

@[simp] theorem State.atLevel_ea (addr : MemAddr) : (s.atLevel level).ea addr = s.ea addr := rfl

@[simp] theorem State.atLevel_check (a : Word) (n : Nat) : (s.atLevel level).check a n = s.check a n := rfl

@[simp] theorem State.atLevel_memRead (a : Word) (n : Nat) : (s.atLevel level).memRead a n = s.memRead a n := rfl

@[simp] theorem State.setReg_atLevel (i : RegIdx) (v : Word) : (s.atLevel level).setReg i v = (s.setReg i v).atLevel level := by
  unfold State.setReg
  split <;> rfl

@[simp] theorem State.setFlags_atLevel (f : Flags) : (s.atLevel level).setFlags f = (s.setFlags f).atLevel level := rfl

@[simp] theorem State.memWrite_atLevel (a : Word) (n : Nat) (v : Word) :
    (s.atLevel level).memWrite a n v = (s.memWrite a n v).atLevel level := rfl

end

/-- At another level the same control effect, and the same writes but for the level itself. -/
def LevelBlind (eff : State → State × Effect) : Prop :=
  ∀ (s : State) (level : Bool), eff (s.atLevel level) = ((eff s).1.atLevel level, (eff s).2)

section
variable {f : Word → Word → Word × Flags} {rd rs1 : RegIdx} {src : Src2} {addr : MemAddr}

/-- A choice by what the level does not change, between two that are blind to it. -/
theorem LevelBlind.ite {p : State → Prop} [DecidablePred p] {eff eff' : State → State × Effect}
    (choice : ∀ s level, p (s.atLevel level) ↔ p s) (blind : LevelBlind eff) (blind' : LevelBlind eff') :
    LevelBlind fun s => if p s then eff s else eff' s := fun s level => by
  beta_reduce
  by_cases h : p s
  · rw [if_pos h, if_pos ((choice s level).mpr h)]
    exact blind s level
  · rw [if_neg h, if_neg (mt (choice s level).mp h)]
    exact blind' s level

theorem raise_levelBlind (tr : Trap) : LevelBlind (raise tr) := fun _ _ => rfl

theorem arith_levelBlind : LevelBlind (arith f rd rs1 src) := fun s level => by simp [arith]

theorem flagsOnly_levelBlind : LevelBlind (flagsOnly f rs1 src) := fun s level => by simp [flagsOnly]

theorem divide_levelBlind : LevelBlind (divide f rd rs1 src) :=
  .ite (p := fun s => s.src2 src = 0x00000000#32) (fun _ _ => .rfl) (raise_levelBlind trapDivide) arith_levelBlind

theorem load_levelBlind {w : Width} {e : Ext} : LevelBlind (load w e rd addr) := fun s level => by
  simp only [load, State.atLevel_ea, State.atLevel_check]
  split
  · exact raise_levelBlind _ s level
  · simp

theorem store_levelBlind {w : Width} : LevelBlind (store w rd addr) := fun s level => by
  simp only [store, State.atLevel_ea, State.atLevel_check]
  split
  · exact raise_levelBlind _ s level
  · simp

/-- A transfer is as blind to the level as what it writes before the jump. -/
theorem transfer_atLevel (t : Word) (s s' : State) (level : Bool) :
    transfer t (s.atLevel level) (s'.atLevel level) = ((transfer t s s').1.atLevel level, (transfer t s s').2) := by
  simp only [transfer, State.atLevel_check]
  split <;> rfl

theorem jumpAndLink_levelBlind {target : State → Word} (blind : ∀ s level, target (s.atLevel level) = target s) :
    LevelBlind fun s => jumpAndLink rd (target s) s := fun s level => by
  simp only [jumpAndLink, blind, State.atLevel_pc, State.setReg_atLevel, transfer_atLevel]

theorem effBcc_levelBlind {c : Cond} {imm22 : BitVec 22} : LevelBlind (effBcc c imm22) :=
  .ite (p := fun s => condHolds c s.flags = true) (fun _ _ => .rfl) (fun s level => transfer_atLevel _ s s level) fun _ _ => rfl

end

/-- Every instruction that is not privileged is blind to the level. -/
theorem execute_levelBlind {i : Instr} (h : privileged i = false) : LevelBlind (execute i) := by
  cases i with
  | addR | addI | subR | subI | andR | andI | orR | orI | xorR | xorI => exact arith_levelBlind
  | shlR | shlI | shrR | shrI | sarR | sarI | mulR | mulI => exact arith_levelBlind
  | divR | divI | divuR | divuI | remR | remI | remuR | remuI => exact divide_levelBlind
  | cmpR | cmpI | tstR | tstI => exact flagsOnly_levelBlind
  | lui rd => exact fun s level => congrArg (·, Effect.next) (s.setReg_atLevel level rd _)
  | ldbR | ldbI | ldbuR | ldbuI | ldhR | ldhI | ldhuR | ldhuI | ldwR | ldwI => exact load_levelBlind
  | ldba | ldbua | ldha | ldhua | ldwa => exact load_levelBlind
  | stbR | stbI | sthR | sthI | stwR | stwI | stba | stha | stwa => exact store_levelBlind
  | beq | bne | blo | bhs | bmi | bpl | bvs | bvc | bhi | bls | bge | blt | bgt | ble | bal => exact effBcc_levelBlind
  | jal | jalrR | jalrI | jala => exact jumpAndLink_levelBlind fun _ _ => rfl
  | swi imm15 => exact raise_levelBlind (trapSoftware imm15)
  | mfsrFlags rd => exact fun s level => congrArg (·, Effect.next) (s.setReg_atLevel level rd _)
  | mtsrFlags | nop => exact fun _ _ => rfl
  | halt | rti => cases h
  | mfsrStatus | mfsrCause | mfsrEaddr | mfsrEpc | mfsrEflags | mfsrIpend => cases h
  | mtsrStatus | mtsrCause | mtsrEaddr | mtsrEpc | mtsrEflags => cases h

/-- At its own level the state is itself, so what is blind to the level keeps it. -/
theorem LevelBlind.atLevel_fst {eff : State → State × Effect} (blind : LevelBlind eff) (s : State) :
    (eff s).1.atLevel s.status.priv = (eff s).1 :=
  (congrArg Prod.fst (blind s s.status.priv)).symm

/-- Settles O26: a privileged instruction checks the level first, every other one is blind to it. -/
theorem privilegeCheckIsExact : Obligations.PrivilegeCheckIsExact := by
  refine fun i s => ⟨fun h => trapsInUserMode_of_privileged h s, fun h level => ?_⟩
  have blind := execute_levelBlind h
  rw [blind s level]
  exact ⟨rfl, blind.atLevel_fst s⟩

/-! ### HALT, NOP, SWI and RTI (spec/43_system.md R181-R183, R186) -/

/-- Settles O22: past the privilege check HALT only halts, and NOP has no check. -/
theorem haltAndNopResult : Obligations.HaltAndNopResult := by
  refine ⟨rfl, rfl, fun s => ⟨fun supervisor => ?_, trapsInUserMode_of_privileged rfl s, rfl⟩⟩
  have run : execute .halt s = (s, .halt) := requireSupervisor_of_supervisor supervisor
  rw [exec_eq_execute, run]
  rfl

/-- Settles O23: SWI's one effect is its trap. -/
theorem softwareInterruptTraps : Obligations.SoftwareInterruptTraps := by
  intro imm15 s
  obtain ⟨_, _, _, _, _, causeWord, _⟩ := causeWords 0#32 0#32 imm15
  exact ⟨rfl, _, exec_eq_execute _ s, causeWord ▸ takeSync_taken (tr := trapSoftware imm15) s (by simp [trapSoftware])⟩

/-- What RTI leaves once its EPC passes the check. -/
theorem leaveHandler_jump_done (s : State) : ReturnDone s { leaveHandler s with pc := s.epc } := by
  constructor
  case regs | mem => exact fun _ => rfl
  all_goals rfl

/-- Settles O24: past the privilege check RTI is a transfer to EPC. -/
theorem rtiRestores : Obligations.RtiRestores := by
  refine ⟨rfl, fun s => ⟨trapsInUserMode_of_privileged rfl s, fun supervisor => ?_⟩⟩
  have run : execute .rti s = transfer s.epc s (leaveHandler s) := requireSupervisor_of_supervisor supervisor
  exact transfer_accessCases run (leaveHandler_jump_done s)

/-! ### The control and status registers as numbers (spec/10_state.md R28-R36) -/

/-- One bit appended below a vector doubles its number and adds the bit. -/
theorem toNat_append_ofBool {n : Nat} (x : BitVec n) (b : Bool) : (x ++ BitVec.ofBool b).toNat = 2 * x.toNat + b.toNat := by
  rw [BitVec.toNat_append, BitVec.toNat_ofBool, ← Nat.shiftLeft_add_eq_or_of_lt b.toNat_lt, Nat.shiftLeft_eq]
  omega

theorem Flags.bits_toNat (f : Flags) :
    f.bits.toNat = f.c.toNat + 2 * f.z.toNat + 4 * f.n.toNat + 8 * f.v.toNat := by
  simp only [Flags.bits, toNat_append_ofBool, BitVec.toNat_ofBool]
  omega

theorem Status.word_eq (st : Status) :
    st.word = BitVec.ofNat 32 (st.ie.toNat + 2 * st.priv.toNat + 4 * st.pie.toNat + 8 * st.ppriv.toNat + 16 * st.inh.toNat) := by
  rw [Status.word, ← BitVec.ofNat_toNat]
  congr 1
  simp only [toNat_append_ofBool, BitVec.toNat_ofBool]
  omega

/-- FLAGS reads as the four flags, C lowest. -/
theorem State.csr_flags_eq (s : State) :
    s.csr .flags = BitVec.ofNat 32 (s.flags.c.toNat + 2 * s.flags.z.toNat + 4 * s.flags.n.toNat + 8 * s.flags.v.toNat) := by
  rw [State.csr, ← BitVec.ofNat_toNat, Flags.bits_toNat]

theorem State.csr_ipend_eq (s : State) : s.csr .ipend = BitVec.ofNat 32 s.irq.toNat := by
  rw [State.csr, ← BitVec.ofNat_toNat, BitVec.toNat_ofBool]

/-- The flags that the low four bits of a word hold (spec/10_state.md R28). -/
theorem Flags.ofBits_setWidth (v : Word) :
    Flags.ofBits (v.setWidth 4) =
      { c := v.toNat.testBit 0, z := v.toNat.testBit 1, n := v.toNat.testBit 2, v := v.toNat.testBit 3 } := by
  simp only [Flags.ofBits, BitVec.getLsbD_setWidth]
  rfl

theorem setWidth_four_eq (v : Word) : v.setWidth 4 = BitVec.ofNat 4 (v.toNat % 16) := by
  apply BitVec.eq_of_toNat_eq
  simp

/-! ### MFSR and MTSR (spec/43_system.md R184, R185) -/

section
variable {i : Instr} {c : Csr} {r : RegIdx} {w : Word} {s : State}

/-- MFSR past the privilege check is one register write. -/
theorem exec_mfsr_done (run : execute i s = effMfsr c r w s) (allowed : c = .flags ∨ s.status.priv = true) :
    ∃ t, exec i s = .next t ∧ MoveDone r (s.csr c) (s.pc + 4#32) s t := by
  rw [exec_eq_execute, run, effMfsr, requireForCsr_of_allowed allowed]
  exact ⟨_, rfl, setReg_next_done s r (s.csr c)⟩

/-- MTSR past the privilege check is one write of its CSR. -/
theorem exec_mtsr (run : execute i s = effMtsr c r w s) (allowed : c = .flags ∨ s.status.priv = true) :
    exec i s = .next { s.setCsr c (s.reg r) with pc := s.pc + 4#32 } := by
  rw [exec_eq_execute, run, effMtsr, requireForCsr_of_allowed allowed, applyEffect, State.setCsr_pc]

/-- A privileged MFSR, by its word, its row and the value of its CSR. -/
theorem mfsrCase_of_run {k : BitVec 15} {v : Word} (word : encode i = formatI 0x33#6 r 0#5 k) (check : privileged i = true)
    (run : execute i s = effMfsr c r w s) (value : s.csr c = v) : MfsrCase i k r v s :=
  ⟨word, trapsInUserMode_of_privileged check s, fun supervisor => value ▸ exec_mfsr_done run (.inr supervisor)⟩

/-- A privileged MTSR, by its word, its row and the state with its CSR written. -/
theorem mtsrCase_of_run {k : BitVec 15} {t : State} (word : encode i = formatI 0x34#6 0#5 r k) (check : privileged i = true)
    (run : execute i s = effMtsr c r w s) (written : { s.setCsr c (s.reg r) with pc := s.pc + 4#32 } = t) :
    MtsrCase i k r s t :=
  ⟨word, trapsInUserMode_of_privileged check s, fun supervisor => written ▸ exec_mtsr run (.inr supervisor)⟩

end

/-- Settles O27: each row reads its CSR, and FLAGS at every level. -/
theorem mfsrReads : Obligations.MfsrReads := fun _ s =>
  ⟨mfsrCase_of_run rfl rfl rfl s.status.word_eq, mfsrCase_of_run rfl rfl rfl rfl, mfsrCase_of_run rfl rfl rfl rfl,
    mfsrCase_of_run rfl rfl rfl rfl, mfsrCase_of_run rfl rfl rfl (BitVec.ofNat_toNat 32 s.eflags).symm,
    mfsrCase_of_run rfl rfl rfl s.csr_ipend_eq, rfl, s.csr_flags_eq ▸ exec_mfsr_done rfl (.inl rfl)⟩

/-- Settles O28: each row writes its CSR, and FLAGS at every level. -/
theorem mtsrWrites : Obligations.MtsrWrites := by
  intro rs1 s
  refine ⟨mtsrCase_of_run rfl rfl rfl rfl, mtsrCase_of_run rfl rfl rfl rfl, mtsrCase_of_run rfl rfl rfl rfl,
    mtsrCase_of_run rfl rfl rfl rfl, mtsrCase_of_run rfl rfl rfl ?_, rfl, ?_⟩
  · rw [← setWidth_four_eq]
    rfl
  · rw [← Flags.ofBits_setWidth]
    exact exec_mtsr rfl (.inl rfl)

end Sys2Proof.Machine

/-! The statements about spec/60_exceptions.md: the start of a step (R205, R212), traps and halts (R208-R216), the privilege level (R222),
and the host's `run`, `request_halt` and reads (R224-R228). -/

namespace Sys2Proof.Machine

/-! ### Taking a trap (spec/60_exceptions.md R209, R210, R214, R216) -/

/-- CAUSE as a number: the detail above the code (spec/10_state.md R31). -/
theorem Trap.causeWord_eq (tr : Trap) :
    tr.causeWord = BitVec.ofNat 32 (256 * tr.detail.toNat + (Cause.code tr.cause).toNat) := by
  have code := (Cause.code tr.cause).isLt
  rw [Trap.causeWord, ← BitVec.ofNat_toNat, BitVec.toNat_append, ← Nat.shiftLeft_add_eq_or_of_lt code, Nat.shiftLeft_eq,
    Nat.mul_comm]

section
variable {tr : Trap} {epc h : Word} {s : State}

theorem vectorTrap_of_unhandled (unhandled : VectorTable.handler s.cfg.vectors tr.cause = none) :
    vectorTrap tr epc s = haltWith (.unhandled tr) s := by
  rw [vectorTrap, unhandled]

theorem vectorTrap_of_handler (handler : VectorTable.handler s.cfg.vectors tr.cause = some h) :
    vectorTrap tr epc s =
      (enterHandler tr epc h s, if tr.cause = .externalInterrupt then .interrupted else .trapped tr) := by
  rw [vectorTrap, handler]

theorem takeSync_of_doubleFault (inHandler : s.status.inh = true) (disabled : s.status.ie = false) :
    takeSync tr s = haltWith (.doubleFault tr) s :=
  if_pos ⟨inHandler, disabled⟩

/-- With IE = 1 a trap nests: it is vectored whatever INH is. -/
theorem takeSync_of_enabled (enabled : s.status.ie = true) : takeSync tr s = vectorTrap tr s.pc s :=
  if_neg fun double => by simp [enabled] at double

/-- A synchronous trap is never answered as the external interrupt. -/
theorem takeSync_ne_interrupted (external : tr.cause ≠ .externalInterrupt) : (takeSync tr s).2 ≠ .interrupted := by
  intro interrupted
  have answer : takeSync tr s = ((takeSync tr s).1, .interrupted) := Prod.ext rfl interrupted
  rcases takeSync_cases answer with ⟨_, _, _, result⟩ | ⟨_, vectored⟩
  · cases result
  · rcases vectorTrap_cases vectored with ⟨_, _, result⟩ | ⟨_, _, _, result⟩
    · cases result
    · simp [external] at result

end

/-- Settles O34: the two branches of vectoring, CAUSE read as a number. -/
theorem trapEntrySavesTheContext : Obligations.TrapEntrySavesTheContext := by
  refine fun tr epc s => ⟨vectorTrap_of_unhandled, fun h handler => ?_⟩
  rw [vectorTrap_of_handler handler, ← tr.causeWord_eq]
  exact ⟨enterHandler_entered tr epc h s, enterHandler_irq tr epc h s, rfl⟩

/-! ### An instruction that traps (spec/60_exceptions.md R208) -/

section
variable {i : Instr} {s : State} {tr : Trap}

/-- Of the shapes of an effect, the one that traps writes nothing, and its cause is never the external interrupt. -/
theorem execute_of_trap (traps : (execute i s).2 = .trap tr) :
    execute i s = (s, .trap tr) ∧ tr.cause ≠ .externalInterrupt := by
  have shape := execute_shape i s
  generalize execute i s = r at shape traps
  cases shape with
  | traps tr' external => cases traps; exact ⟨rfl, external⟩
  | writesReg | writesRegAndFlags | writesOnlyFlags | stores | writesCsr | writesNothing => cases traps
  | jumps | links | halts | returns => cases traps

theorem applyEffect_of_trap (traps : (execute i s).2 = .trap tr) : applyEffect (execute i s) = takeSync tr s := by
  rw [(execute_of_trap traps).1, applyEffect]

/-- No instruction is answered as the external interrupt. -/
theorem applyEffect_ne_interrupted : (applyEffect (execute i s)).2 ≠ .interrupted := by
  cases effect : (execute i s).2 with
  | trap tr => exact applyEffect_of_trap effect ▸ takeSync_ne_interrupted (execute_of_trap effect).2
  | next | jump | halt => simp [applyEffect, effect, haltWith]

end

/-- Settles O33: the effect is the bare trap of the state before, and the step takes it there. -/
theorem trappingInstructionWritesNothing : Obligations.TrappingInstructionWritesNothing := by
  intro i s tr traps
  obtain ⟨unwritten, external⟩ := execute_of_trap traps
  refine ⟨congrArg Prod.fst unwritten, _, exec_eq_execute i s, ?_⟩
  rw [applyEffect_of_trap traps, ← tr.causeWord_eq]
  exact takeSync_taken s external

/-! ### The start of a step (spec/60_exceptions.md R205, R212) -/

section
variable {s : State}

theorem boundary_of_halted (halted : s.halted = true) : boundary s = .settled (s, .alreadyHalted) := if_pos halted

theorem boundary_of_haltReq (running : s.halted = false) (request : s.haltReq = true) :
    boundary s = .settled (haltWith .externalHalt { s with haltReq := false }) := by
  rw [boundary, if_neg (by simp [running]), if_pos request]

/-- A core that runs its next instruction starts the step with the fetch. -/
theorem boundary_of_runs (runs : Runs s) : boundary s = fetchDecode s := by
  obtain ⟨running, noRequest, masked⟩ := runs
  have notTaken : ¬(s.irq = true ∧ s.status.ie = true) := fun ⟨irq, ie⟩ => by simp [masked irq] at ie
  rw [boundary, if_neg (by simp [running]), if_neg (by simp [noRequest]), if_neg notTaken]

theorem step_of_fetchFault {k : FaultKind} (runs : Runs s) (fails : s.check s.pc 4 = some k) :
    step s = .next (takeSync (trapMemory k s.pc) s).1 :=
  step_of_settled <| by rw [boundary_of_runs runs, fetchDecode, fails]

theorem boundary_of_decoded {i : Instr} (runs : Runs s) (passes : s.check s.pc 4 = none)
    (decoded : decode s.fetchWord = .ok i) : boundary s = .run i := by
  rw [boundary_of_runs runs, fetchDecode, passes]
  simp only [decoded]

/-- The step of an instruction that traps takes its trap from the state before. -/
theorem step_of_trap {i : Instr} {tr : Trap} (runs : Runs s) (passes : s.check s.pc 4 = none)
    (decoded : decode s.fetchWord = .ok i) (traps : (execute i s).2 = .trap tr) : step s = .next (takeSync tr s).1 :=
  applyEffect_of_trap traps ▸ step_of_run (boundary_of_decoded runs passes decoded)

theorem hostStep_of_settled {r : State × StepResult} (settled : boundary s = .settled r) : hostStep s = r := by
  rw [hostStep, settled]

theorem hostStep_of_run {i : Instr} (fetched : boundary s = .run i) : hostStep s = applyEffect (execute i s) := by
  rw [hostStep, fetched]

/-- With no enabled interrupt pending at the boundary, no step is answered as one. -/
theorem hostStep_ne_interrupted (runs : Runs s) : (hostStep s).2 ≠ .interrupted := by
  obtain ⟨running, noRequest, masked⟩ := runs
  rcases boundary_cases s with ⟨halted, _⟩ | ⟨_, request, _⟩ | ⟨_, _, irq, ie, _⟩ | ⟨_, _, _, hfetch⟩
  · simp [running] at halted
  · simp [noRequest] at request
  · simp [masked irq] at ie
  · rcases hfetch with ⟨k, _, settled⟩ | ⟨_, _, _, settled⟩ | ⟨i, _, _, fetched⟩
    · exact hostStep_of_settled settled ▸ takeSync_ne_interrupted (by simp [trapMemory])
    · exact hostStep_of_settled settled ▸ takeSync_ne_interrupted (by simp [trapUndecoded])
    · exact hostStep_of_run fetched ▸ applyEffect_ne_interrupted

end

/-- Settles O42: each source of a synchronous trap takes it from the state before, where INH and IE decide. -/
theorem doubleFaultHalts : Obligations.DoubleFaultHalts := by
  refine fun s runs inHandler => ⟨fun disabled => ?_, fun enabled i tr h passes decoded traps handler => ?_⟩
  · have halts (tr : Trap) : (takeSync tr s).1 = { s with halted := true, haltReason := some (.doubleFault tr) } :=
      congrArg Prod.fst (takeSync_of_doubleFault inHandler disabled)
    refine ⟨fun k fails => halts (trapMemory k s.pc) ▸ step_of_fetchFault runs fails, fun e passes undecoded => ?_,
      fun i tr passes decoded traps => halts tr ▸ step_of_trap runs passes decoded traps, hostStep_ne_interrupted runs⟩
    exact halts (trapUndecoded s.fetchWord) ▸ step_of_undecoded runs (checkAccess_eq_none.mp passes) undecoded
  · refine ⟨_, step_of_trap runs passes decoded traps, ?_⟩
    rw [takeSync_of_enabled enabled, vectorTrap_of_handler handler, ← tr.causeWord_eq]
    exact enterHandler_entered tr s.pc h s

/-! ### The privilege level (spec/60_exceptions.md R222) -/

/-- The shapes of what a step does to STATUS. -/
inductive StatusShape (s t : State) : Prop where
  | keeps (status : t.status = s.status)
  | enters (status : t.status = s.status.enter)
      (handler : ∃ c h, VectorTable.handler s.cfg.vectors c = some h ∧ t.pc = h ∧ t.epc = s.pc)
  | restores (fetched : boundary s = .run .rti) (supervisor : s.status.priv = true) (status : t.status = s.status.leave)
  | writes (rs1 : RegIdx) (fetched : boundary s = .run (.mtsrStatus rs1)) (supervisor : s.status.priv = true)
      (status : t.status = s.status.write (s.reg rs1))

theorem vectorTrap_statusShape (tr : Trap) (s : State) : StatusShape s (vectorTrap tr s.pc s).1 := by
  rcases vectorTrap_state tr s.pc s with ⟨_, result⟩ | ⟨h, handler, result⟩ <;> rw [result]
  · exact .keeps rfl
  · exact .enters rfl ⟨tr.cause, h, handler, rfl, rfl⟩

theorem takeSync_statusShape (tr : Trap) (s : State) : StatusShape s (takeSync tr s).1 := by
  rcases takeSync_state tr s with result | result | ⟨h, handler, result⟩ <;> rw [result]
  · exact .keeps rfl
  · exact .keeps rfl
  · exact .enters rfl ⟨tr.cause, h, handler, rfl, rfl⟩

/-- An instruction writes STATUS by its trap, as RTI or as MTSR STATUS, the last two past the privilege check. -/
theorem applyEffect_statusShape {i : Instr} {s : State} {r : State × Effect} (fetched : boundary s = .run i)
    (shape : EffectShape i s r) : StatusShape s (applyEffect r).1 := by
  cases shape with
  | traps tr => exact takeSync_statusShape tr s
  | returns is supervisor => exact .restores (is ▸ fetched) supervisor rfl
  | writesCsr c v origin allowed =>
    cases c with
    | status =>
      obtain ⟨rs1, rfl, rfl⟩ := origin rfl
      exact .writes rs1 fetched (allowed.resolve_left (by decide)).1 rfl
    | cause | eaddr | epc | eflags | flags | ipend => exact .keeps rfl
  | writesReg rd v => exact .keeps (s.setReg_status rd v)
  | writesRegAndFlags rd v => exact .keeps (s.setReg_status rd v)
  | links rd v => exact .keeps (s.setReg_status rd v)
  | writesOnlyFlags | stores | jumps | halts | writesNothing => exact .keeps rfl

theorem step_statusShape {s t : State} (h : step s = .next t) : StatusShape s t := by
  cases step_shape h with
  | stays | haltsOnRequest => exact .keeps rfl
  | vectorsInterrupt => exact vectorTrap_statusShape trapExternal s
  | trapsOnFetch tr => exact takeSync_statusShape tr s
  | runs i _ _ fetched => exact applyEffect_statusShape fetched (execute_shape i s)

/-- Settles O47: of the shapes of a write to STATUS, each that changes PRIV is one of the transitions. -/
theorem privilegeChangesOnlyByItsTransitions : Obligations.PrivilegeChangesOnlyByItsTransitions := by
  refine ⟨fun _ => rfl, fun s t next changed => ?_⟩
  cases step_statusShape next with
  | keeps status => exact absurd (congrArg Status.priv status) changed
  | enters status handler => exact .inl ⟨status, handler⟩
  | restores fetched supervisor status => exact .inr (.inl ⟨fetched, supervisor, congrArg Status.priv status⟩)
  | writes rs1 fetched supervisor status =>
    have written : t.status.priv = (s.reg rs1).toNat.testBit 1 := congrArg Status.priv status
    rw [supervisor, written] at changed
    exact .inr (.inr ⟨rs1, fetched, supervisor, Bool.eq_false_of_not_eq_true changed⟩)

/-! ### `run` (spec/60_exceptions.md R224) -/

section
variable {s : State}

theorem runLoop_of_halted (halted : s.halted = true) (n : Nat) (last : Option StepResult) (k : Nat) :
    runLoop n last k s = { reason := .halted s.haltReason, last := last, steps := k, context := s } := by
  cases n <;> exact if_pos halted

theorem runLoop_zero_of_running (running : s.halted = false) (last : Option StepResult) (k : Nat) :
    runLoop 0 last k s = { reason := .budgetExhausted, last := last, steps := k, context := s } :=
  if_neg (by simp [running])

theorem runLoop_succ_of_running (running : s.halted = false) (n : Nat) (last : Option StepResult) (k : Nat) :
    runLoop (n + 1) last k s = runLoop n (some (hostStep s).2) (k + 1) (hostStep s).1 :=
  if_neg (by simp [running])

/-- The loop from the middle is the run from its start, its steps counted on and its last result kept. -/
theorem runLoop_eq (n : Nat) (last : Option StepResult) (k : Nat) (s : State) :
    runLoop n last k s = { run n s with last := (run n s).last.or last, steps := (run n s).steps + k } := by
  induction n generalizing last k s with
  | zero =>
    cases h : s.halted with
    | true => simp [run, runLoop_of_halted h]
    | false => simp [run, runLoop_zero_of_running h]
  | succ n ih =>
    cases h : s.halted with
    | true => simp [run, runLoop_of_halted h]
    | false =>
      rw [run, runLoop_succ_of_running h, runLoop_succ_of_running h, ih, ih _ (0 + 1)]
      simp [Nat.add_assoc, Nat.add_comm 1]

theorem run_of_halted (halted : s.halted = true) (n : Nat) :
    run n s = { reason := .halted s.haltReason, last := none, steps := 0, context := s } :=
  runLoop_of_halted halted n none 0

theorem run_zero_of_running (running : s.halted = false) :
    run 0 s = { reason := .budgetExhausted, last := none, steps := 0, context := s } :=
  runLoop_zero_of_running running none 0

theorem run_succ_of_running (running : s.halted = false) (n : Nat) :
    run (n + 1) s =
      { run n (hostStep s).1 with
        last := some ((run n (hostStep s).1).last.getD (hostStep s).2), steps := (run n (hostStep s).1).steps + 1 } := by
  rw [run, runLoop_succ_of_running running, runLoop_eq, Option.or_some]

end

/-- What a result of `run` with this budget says of itself. -/
structure RunResult.Exact (budget : Nat) (r : RunResult) : Prop where
  bound : r.steps ≤ budget
  exhausted : r.reason = .budgetExhausted ↔ r.context.halted = false
  used : r.reason = .budgetExhausted → r.steps = budget
  reason : ∀ q, r.reason = .halted q → q = r.context.haltReason
  last : r.last = none ↔ r.steps = 0

theorem run_exact (n : Nat) (s : State) : (run n s).Exact n := by
  induction n generalizing s with
  | zero =>
    cases h : s.halted with
    | true => rw [run_of_halted h]; constructor <;> simp [h]
    | false => rw [run_zero_of_running h]; constructor <;> simp [h]
  | succ n ih =>
    cases h : s.halted with
    | true => rw [run_of_halted h]; constructor <;> simp [h]
    | false =>
      rw [run_succ_of_running h]
      have rest := ih (hostStep s).1
      exact ⟨Nat.succ_le_succ rest.bound, rest.exhausted, fun e => congrArg (· + 1) (rest.used e), rest.reason, by simp⟩

/-- Settles O57: the equations of the loop, and what its induction keeps. -/
theorem runStopsByHaltOrBudget : Obligations.RunStopsByHaltOrBudget := by
  intro n s
  obtain ⟨bound, exhausted, used, reason, last⟩ := run_exact n s
  refine ⟨fun halted => run_of_halted halted n, run_zero_of_running, fun running => ?_, bound, exhausted, used, reason, last⟩
  rw [run_succ_of_running running]
  exact ⟨rfl, rfl, rfl, rfl⟩

/-! ### `request_halt` and the halted core (spec/60_exceptions.md R225, R226) -/

/-- Settles O40: the boundary looks at the request before the interrupt and the fetch. -/
theorem haltRequestWins : Obligations.HaltRequestWins := fun _ =>
  ⟨rfl, fun running request => step_of_settled (boundary_of_haltReq running request)⟩

theorem step_of_halted {s : State} (halted : s.halted = true) : step s = .next s :=
  step_of_settled (boundary_of_halted halted)

theorem injectInterrupt_halted {c : Cause} {s t : State} (h : injectInterrupt c s = some t) : t.halted = s.halted := by
  unfold injectInterrupt at h
  split at h <;> cases h
  rfl

theorem loadImage_halted {bytes : List Byte} {origin : Word} {s t : State} (h : loadImage bytes origin s = some t) :
    t.halted = s.halted := by
  obtain ⟨_, rfl⟩ := loadImage_eq_some h
  rfl

/-- Settles O41: the boundary settles a halted core first, and no host call clears `halted`. -/
theorem haltedCoreIsUnchanged : Obligations.HaltedCoreIsUnchanged := by
  refine fun s n halted => ⟨step_of_halted halted, hostStep_of_settled (boundary_of_halted halted), halted,
    run_of_halted halted n, fun t call => step_of_halted ?_⟩
  rcases call with rfl | ⟨c, injected⟩ | ⟨bytes, origin, loaded⟩
  · exact halted
  · exact (injectInterrupt_halted injected).trans halted
  · exact (loadImage_halted loaded).trans halted

/-! ### The host's reads (spec/60_exceptions.md R228) -/

theorem readRegister_eq_none {s : State} {i : Nat} : readRegister s i = none ↔ 31 < i := by
  unfold readRegister
  split <;> simp <;> omega

theorem readRegister_toNat (s : State) (r : RegIdx) : readRegister s r.toNat = some (s.reg r) := by
  have bound := r.isLt
  rw [readRegister, if_pos (by omega), BitVec.ofNat_toNat, BitVec.setWidth_eq]

/-- A byte of a read above its lowest one is a byte of the read one address up. -/
theorem Memory.readLE_succ_byte_succ (m : Memory) (a n k : Nat) (hk : k < 3) :
    (Memory.readLE m a (n + 1)).extractLsb' (8 * (k + 1)) 8 = (Memory.readLE m (a + 1) n).extractLsb' (8 * k) 8 := by
  apply BitVec.eq_of_getLsbD_eq
  intro i hi
  have lowest := (Memory.read m a).getLsbD_of_ge (8 * (k + 1) + i) (by omega)
  have inside : 8 * (k + 1) + i < 32 := by omega
  have above : ¬8 * (k + 1) + i < 8 := by omega
  have shifted : 8 * (k + 1) + i - 8 = 8 * k + i := by omega
  simp only [Memory.readLE, BitVec.getLsbD_extractLsb', BitVec.getLsbD_or, BitVec.getLsbD_setWidth,
    BitVec.getLsbD_shiftLeft, lowest, inside, above, shifted, decide_true, decide_false, Bool.and_false, Bool.false_or,
    Bool.true_and, Bool.not_false]

/-- Byte `k` of a read of `n` bytes is the byte at address `a + k`, or 0 past the bytes read. -/
theorem Memory.readLE_byte (m : Memory) (n k a : Nat) (hk : k < 4) :
    (Memory.readLE m a n).extractLsb' (8 * k) 8 = if k < n then Memory.read m (a + k) else 0x00#8 := by
  induction n generalizing k a with
  | zero => simp [Memory.readLE]
  | succ n ih =>
    cases k with
    | zero =>
      apply BitVec.eq_of_getLsbD_eq
      intro i hi
      simp [Memory.readLE, hi, show i < 32 by omega]
    | succ k =>
      rw [Memory.readLE_succ_byte_succ m a n k (by omega), ih k (a + 1) (by omega), Nat.add_right_comm, ← Nat.add_assoc]
      simp only [Nat.add_lt_add_iff_right]

section
variable {s : State} {addr : Word} {n : Nat}

theorem readMemory_of_fault {k : FaultKind} (width : n = 1 ∨ n = 2 ∨ n = 4) (fails : s.check addr n = some k) :
    readMemory s addr n = .fault k addr := by
  rw [readMemory, if_pos width, fails]

theorem readMemory_of_ok (width : n = 1 ∨ n = 2 ∨ n = 4) (passes : s.check addr n = none) :
    readMemory s addr n = .value (s.memRead addr n) := by
  rw [readMemory, if_pos width, passes]

end

/-- Settles O56: the width first, then the access check, then the bytes. -/
theorem hostReadsAreExact : Obligations.HostReadsAreExact := by
  refine fun s addr i n => ⟨rfl, readRegister_eq_none, readRegister_toNat s, fun ⟨h1, h2, h4⟩ => ?_, fun width =>
    ⟨fun past => ?_, fun inside unaligned => ?_, fun ok => ?_⟩⟩
  · exact if_neg (by simp [h1, h2, h4])
  · exact readMemory_of_fault width (checkAccess_eq_outOfBounds.mpr past)
  · exact readMemory_of_fault width (checkAccess_eq_misaligned.mpr ⟨inside, unaligned⟩)
  · exact ⟨_, readMemory_of_ok width (checkAccess_eq_none.mpr ok), fun k hk => Memory.readLE_byte s.mem n k addr.toNat hk⟩

end Sys2Proof.Machine

/-! The statements about spec/70_reset_and_hazards.md: construction with its reset values (R250, R251) and `load_image` (R253). -/

namespace Sys2Proof.Machine

/-! ### Construction -/

/-- The two conditions of `TargetOk` (spec/20_memory.md R58), as construction applies them to the entry point and the handlers. -/
theorem targetOk_iff_aligned_inside {cap : Nat} {t : Word} : targetOk cap t = true ↔ t.toNat % 4 = 0 ∧ t.toNat + 4 ≤ cap :=
  targetOk_iff.trans (checkAccess_eq_none.trans and_comm)

theorem handlerOk_iff {cap : Nat} {entry : Option Word} :
    handlerOk cap entry = true ↔ ∀ h, entry = some h → h.toNat % 4 = 0 ∧ h.toNat + 4 ≤ cap := by
  cases entry with
  | none => simp [handlerOk]
  | some h => simp [handlerOk, targetOk_iff_aligned_inside]

/-- The causes whose entries construction looks at are all but the double fault. -/
theorem forall_cause_ne_doubleFault {P : Cause → Prop} :
    (∀ c, c ≠ .doubleFault → P c) ↔
      P .illegalOpcode ∧ P .memoryFault ∧ P .divideByZero ∧ P .softwareInterrupt ∧ P .externalInterrupt := by
  refine ⟨fun all => ⟨all _ nofun, all _ nofun, all _ nofun, all _ nofun, all _ nofun⟩,
    fun ⟨illegal, memory, divide, software, external⟩ c ne => ?_⟩
  cases c with
  | illegalOpcode => exact illegal
  | memoryFault => exact memory
  | divideByZero => exact divide
  | softwareInterrupt => exact software
  | externalInterrupt => exact external
  | doubleFault => exact absurd rfl ne

/-- The construction checks with the five handler entries read through the vector table. -/
theorem Config.valid_iff {cfg : Config} :
    Config.valid cfg = true ↔
      4 ≤ cfg.memCapacity ∧ cfg.memCapacity ≤ 2 ^ 32 ∧ targetOk cfg.memCapacity cfg.entryPoint = true ∧
      ∀ c, c ≠ .doubleFault → handlerOk cfg.memCapacity (VectorTable.handler cfg.vectors c) = true := by
  rw [forall_cause_ne_doubleFault]
  simp only [Config.valid, VectorTable.handler, Bool.and_eq_true, decide_eq_true_eq, and_assoc]

theorem construct_eq_some {cfg : Config} {s : State} :
    construct cfg = some s ↔ Config.valid cfg = true ∧ s = State.initial cfg := by
  rw [construct, Option.ite_none_right_eq_some, Option.some_inj, @eq_comm _ s]

theorem exists_construct_eq_some {cfg : Config} : (∃ s, construct cfg = some s) ↔ Config.valid cfg = true := by
  simp [construct_eq_some]

/-- Supervisor mode with IE and INH clear is the word 2. -/
theorem State.initial_csr_status (cfg : Config) : (State.initial cfg).csr .status = 0x00000002#32 :=
  Status.word_eq (State.initial cfg).status

/-- Legal parameters give a reset state within the invariant: pc is the checked entry point and memory is empty. -/
theorem State.initial_inv {cfg : Config} (valid : Config.valid cfg = true) : (State.initial cfg).Inv := by
  obtain ⟨_, _, entry, _⟩ := Config.valid_iff.mp valid
  obtain ⟨aligned, inside⟩ := targetOk_iff_aligned_inside.mp entry
  exact { cfg := valid, mem := rfl, pcAligned := aligned, pcInside := Nat.le_of_add_right_le inside, reason := rfl }

/-- Settles O53: the checks clause by clause, then the fields of the reset state. -/
theorem constructionChecksAndResets : Obligations.ConstructionChecksAndResets := by
  refine fun cfg => ⟨?_, fun s built => ?_⟩
  · rw [exists_construct_eq_some, Config.valid_iff]
    simp only [targetOk_iff_aligned_inside, handlerOk_iff, and_assoc, imp_forall_iff]
  · obtain ⟨valid, rfl⟩ := construct_eq_some.mp built
    exact ⟨State.initial_reg cfg, rfl, rfl, State.initial_csr_status cfg, rfl, rfl, rfl, rfl, rfl, rfl, rfl, rfl,
      fun _ => rfl, rfl, State.initial_inv valid⟩

/-! ### `load_image` -/

theorem loadImage_eq_none {bytes : List Byte} {origin : Word} {s : State} :
    loadImage bytes origin s = none ↔ s.cfg.memCapacity < origin.toNat + bytes.length := by
  simp [loadImage]

/-- Settles O54: what the bytes written at the origin read as, inside and outside. -/
theorem loadImageCopiesBytes : Obligations.LoadImageCopiesBytes := by
  refine fun bytes origin s canonical => ⟨loadImage_eq_none, fun t loaded => ?_, fun _ => rfl⟩
  obtain ⟨fits, rfl⟩ := loadImage_eq_some loaded
  exact ⟨fun _ inside => Memory.read_writeBytes_inside canonical fits inside,
    fun _ outside => Memory.read_writeBytes_of_outside s.mem origin.toNat outside, rfl⟩

end Sys2Proof.Machine

/-! The statements about spec/30_encoding.md: the decoder and the encoder are inverse (R93), and what the decoder rejects (R84,
R85). -/

namespace Sys2Proof.Machine

/-! ### Decoding a word of each format -/

theorem decodeRI_formatR (op : BitVec 6) (rd rs1 rs2 : RegIdx) (formR : RegIdx → Instr) (formI : BitVec 15 → Instr) :
    decodeRI (formatR op rd rs1 rs2) formR formI = .ok (formR rs2) := by
  simp [decodeRI]

theorem decodeRI_formatI (op : BitVec 6) (rd rs1 : RegIdx) (imm15 : BitVec 15) (formR : RegIdx → Instr)
    (formI : BitVec 15 → Instr) : decodeRI (formatI op rd rs1 imm15) formR formI = .ok (formI imm15) := by
  simp [decodeRI]

theorem decodeS_formatS (op : BitVec 6) (i : Instr) : decodeS (formatS op) i = .ok i := by
  simp [decodeS]

/-- Settles O1: the opcode of each row selects its arm of the decoder, and the fields of its format are those it was made of. -/
theorem decodeOfEncodeIsIdentity : Obligations.DecodeOfEncodeIsIdentity := by
  intro i
  cases i with
  | addR | subR | andR | orR | xorR | shlR | shrR | sarR | mulR | divR | divuR | remR | remuR | cmpR | tstR =>
    simp [encode, decode, decodeArith, decodeRI_formatR]
  | addI | subI | andI | orI | xorI | shlI | shrI | sarI | mulI | divI | divuI | remI | remuI | cmpI | tstI =>
    simp [encode, decode, decodeArith, decodeRI_formatI]
  | lui => simp [encode, decode, decodeArith]
  | ldbR | ldbuR | ldhR | ldhuR | ldwR | stbR | sthR | stwR => simp [encode, decode, decodeMemory, decodeRI_formatR]
  | ldbI | ldbuI | ldhI | ldhuI | ldwI | stbI | sthI | stwI => simp [encode, decode, decodeMemory, decodeRI_formatI]
  | ldba | ldbua | ldha | ldhua | ldwa | stba | stha | stwa => simp [encode, decode, decodeMemory]
  | beq | bne | blo | bhs | bmi | bpl | bvs | bvc | bhi | bls | bge | blt | bgt | ble | bal =>
    simp [encode, decode, decodeBranch, decodeBcc]
  | jal | jala => simp [encode, decode, decodeBranch]
  | jalrR => simp [encode, decode, decodeBranch, decodeRI_formatR]
  | jalrI => simp [encode, decode, decodeBranch, decodeRI_formatI]
  | halt | rti | nop => simp [encode, decode, decodeSystem, decodeS_formatS]
  | swi => simp [encode, decode, decodeSystem]
  | mfsrStatus | mfsrCause | mfsrEaddr | mfsrEpc | mfsrEflags | mfsrFlags | mfsrIpend =>
    simp [encode, decode, decodeSystem, decodeMfsr]
  | mtsrStatus | mtsrCause | mtsrEaddr | mtsrEpc | mtsrEflags | mtsrFlags =>
    simp [encode, decode, decodeSystem, decodeMtsr]

/-! ### A word is the format of its own fields -/

section
variable (w : Word)

theorem formatU_fields : formatU (fieldOp w) (fieldRd w) (fieldImm21 w) = w := by
  apply BitVec.eq_of_getLsbD_eq
  intro i hi
  interval_cases i <;> simp [formatU, place, fieldOp, fieldRd, fieldImm21]

theorem formatB_fields : formatB (fieldOp w) (fieldCond w) (fieldImm22 w) = w := by
  apply BitVec.eq_of_getLsbD_eq
  intro i hi
  interval_cases i <;> simp [formatB, place, fieldOp, fieldCond, fieldImm22]

end

section
variable {w : Word}

theorem formatI_fields (m : fieldM w = true) : formatI (fieldOp w) (fieldRd w) (fieldRs1 w) (fieldImm15 w) = w := by
  unfold fieldM at m
  apply BitVec.eq_of_getLsbD_eq
  intro i hi
  interval_cases i <;> simp [formatI, place, fieldOp, fieldRd, fieldRs1, fieldImm15, m]

/-- A field of zeros has every bit of its place 0. -/
theorem getLsbD_of_extractLsb'_eq_zero {lo n : Nat} (zero : w.extractLsb' lo n = 0#n) {i : Nat} (hi : i < n) :
    w.getLsbD (lo + i) = false := by
  have := congrArg (·.getLsbD i) zero
  simpa [hi] using this

theorem formatR_fields (m : fieldM w = false) (low : fieldLow10 w = 0#10) :
    formatR (fieldOp w) (fieldRd w) (fieldRs1 w) (fieldRs2 w) = w := by
  unfold fieldM at m
  have bits := fun i => getLsbD_of_extractLsb'_eq_zero low (i := i)
  apply BitVec.eq_of_getLsbD_eq
  intro i hi
  by_cases h : i < 10
  · have := bits i h
    interval_cases i <;> simp_all [formatR, place]
  · interval_cases i <;> simp_all [formatR, place, fieldOp, fieldRd, fieldRs1, fieldRs2]

theorem formatS_fields (low : fieldLow26 w = 0#26) : formatS (fieldOp w) = w := by
  have bits := fun i => getLsbD_of_extractLsb'_eq_zero low (i := i)
  apply BitVec.eq_of_getLsbD_eq
  intro i hi
  by_cases h : i < 26
  · have := bits i h
    interval_cases i <;> simp_all [formatS, place]
  · interval_cases i <;> simp_all [formatS, place, fieldOp]

end

/-! ### Encoding what a word decodes to -/

theorem eq_ofNat_of_toNat_eq {n k : Nat} {x : BitVec n} (h : x.toNat = k) : x = BitVec.ofNat n k := by
  rw [← h, BitVec.ofNat_toNat, BitVec.setWidth_eq]

section
variable {w : Word} {i : Instr} {op : BitVec 6}

/-- The opcode is the family's number above the row's number in it (spec/30_encoding.md R71). -/
theorem fieldOp_eq_of_family_of_row {f k : Nat} (family : (fieldOp w).toNat / 16 = f) (row : (fieldOp w).toNat % 16 = k) :
    fieldOp w = BitVec.ofNat 6 (16 * f + k) := eq_ofNat_of_toNat_eq (by omega)

theorem encode_of_formatU (opcode : fieldOp w = op) (word : encode i = formatU op (fieldRd w) (fieldImm21 w)) :
    encode i = w := by
  rw [word, ← opcode, formatU_fields]

theorem encode_of_formatB (opcode : fieldOp w = op) (word : encode i = formatB op (fieldCond w) (fieldImm22 w)) :
    encode i = w := by
  rw [word, ← opcode, formatB_fields]

theorem encode_of_formatI (opcode : fieldOp w = op) (m : fieldM w = true)
    (word : encode i = formatI op (fieldRd w) (fieldRs1 w) (fieldImm15 w)) : encode i = w := by
  rw [word, ← opcode, formatI_fields m]

theorem encode_of_decodeRI {formR : RegIdx → Instr} {formI : BitVec 15 → Instr} (opcode : fieldOp w = op)
    (encodeR : ∀ rs2, encode (formR rs2) = formatR op (fieldRd w) (fieldRs1 w) rs2)
    (encodeI : ∀ imm15, encode (formI imm15) = formatI op (fieldRd w) (fieldRs1 w) imm15)
    (h : decodeRI w formR formI = .ok i) : encode i = w := by
  unfold decodeRI at h
  split at h
  next m =>
    cases h
    exact encode_of_formatI opcode m (encodeI _)
  next m =>
    split at h
    next low =>
      cases h
      rw [encodeR, ← opcode, formatR_fields (Bool.eq_false_of_not_eq_true m) low]
    next => cases h

theorem encode_of_decodeS {j : Instr} (opcode : fieldOp w = op) (word : encode j = formatS op) (h : decodeS w j = .ok i) :
    encode i = w := by
  unfold decodeS at h
  split at h
  next low =>
    cases h
    rw [word, ← opcode, formatS_fields low]
  next => cases h

theorem encode_of_decodeArith (family : (fieldOp w).toNat / 16 = 0) (h : decodeArith w = .ok i) : encode i = w := by
  unfold decodeArith at h
  split at h
  case h_14 row | h_15 row =>
    dsimp only at h
    split at h
    next rd =>
      exact encode_of_decodeRI (fieldOp_eq_of_family_of_row family row) (fun _ => rd ▸ rfl) (fun _ => rd ▸ rfl) h
    next => cases h
  case h_16 row =>
    cases h
    exact encode_of_formatU (fieldOp_eq_of_family_of_row family row) rfl
  case h_17 => cases h
  all_goals
    next row => exact encode_of_decodeRI (fieldOp_eq_of_family_of_row family row) (fun _ => rfl) (fun _ => rfl) h

theorem encode_of_decodeMemory (family : (fieldOp w).toNat / 16 = 1) (h : decodeMemory w = .ok i) : encode i = w := by
  unfold decodeMemory at h
  split at h
  case h_17 => cases h
  case h_1 row | h_2 row | h_3 row | h_4 row | h_5 row | h_6 row | h_7 row | h_8 row =>
    exact encode_of_decodeRI (fieldOp_eq_of_family_of_row family row) (fun _ => rfl) (fun _ => rfl) h
  all_goals
    next row =>
      cases h
      exact encode_of_formatU (fieldOp_eq_of_family_of_row family row) rfl

theorem encode_of_decodeBcc (opcode : fieldOp w = 0x20#6) (h : decodeBcc w = .ok i) : encode i = w := by
  unfold decodeBcc at h
  split at h
  case h_16 => cases h
  all_goals
    next number =>
      cases h
      have cond := eq_ofNat_of_toNat_eq number
      exact encode_of_formatB opcode (cond ▸ rfl)

theorem encode_of_decodeBranch (family : (fieldOp w).toNat / 16 = 2) (h : decodeBranch w = .ok i) : encode i = w := by
  unfold decodeBranch at h
  split at h
  case h_1 row => exact encode_of_decodeBcc (fieldOp_eq_of_family_of_row family row) h
  case h_2 row | h_4 row =>
    cases h
    exact encode_of_formatU (fieldOp_eq_of_family_of_row family row) rfl
  case h_3 row =>
    exact encode_of_decodeRI (fieldOp_eq_of_family_of_row family row) (fun _ => rfl) (fun _ => rfl) h
  case h_5 => cases h

theorem encode_of_decodeMfsr (opcode : fieldOp w = 0x33#6) (h : decodeMfsr w = .ok i) : encode i = w := by
  unfold decodeMfsr at h
  split at h
  next fixed =>
    obtain ⟨rs1, m⟩ := fixed
    split at h
    case h_8 => cases h
    all_goals
      next number =>
        cases h
        have csr := eq_ofNat_of_toNat_eq number
        exact encode_of_formatI opcode m (by rw [rs1, csr]; rfl)
  next => cases h

theorem encode_of_decodeMtsr (opcode : fieldOp w = 0x34#6) (h : decodeMtsr w = .ok i) : encode i = w := by
  unfold decodeMtsr at h
  split at h
  next fixed =>
    obtain ⟨rd, m⟩ := fixed
    split at h
    case h_7 => cases h
    all_goals
      next number =>
        cases h
        have csr := eq_ofNat_of_toNat_eq number
        exact encode_of_formatI opcode m (by rw [rd, csr]; rfl)
  next => cases h

theorem encode_of_decodeSystem (family : (fieldOp w).toNat / 16 = 3) (h : decodeSystem w = .ok i) : encode i = w := by
  unfold decodeSystem at h
  split at h
  case h_1 row | h_3 row | h_6 row => exact encode_of_decodeS (fieldOp_eq_of_family_of_row family row) rfl h
  case h_2 row =>
    split at h
    next fixed =>
      obtain ⟨rd, rs1, m⟩ := fixed
      cases h
      exact encode_of_formatI (fieldOp_eq_of_family_of_row family row) m (by rw [rd, rs1]; rfl)
    next => cases h
  case h_4 row => exact encode_of_decodeMfsr (fieldOp_eq_of_family_of_row family row) h
  case h_5 row => exact encode_of_decodeMtsr (fieldOp_eq_of_family_of_row family row) h
  case h_7 => cases h

end

/-- Settles O2: the row that decodes has the word's opcode, and the checks it passed fix every bit outside its fields. -/
theorem encodeOfDecodeIsIdentity : Obligations.EncodeOfDecodeIsIdentity := by
  intro w i h
  unfold decode at h
  split at h
  case h_1 family => exact encode_of_decodeArith family h
  case h_2 family => exact encode_of_decodeMemory family h
  case h_3 family => exact encode_of_decodeBranch family h
  case h_4 family => exact encode_of_decodeSystem family h
  case h_5 => cases h

/-! ### What the decoder rejects is an illegal word -/

section
variable {w : Word} {e : DecodeError}

/-- The clauses of `IllegalWord` in the decoder's fields. -/
theorem illegalWord_iff :
    IllegalWord w ↔
      (0x24 ≤ (fieldOp w).toNat ∧ (fieldOp w).toNat ≤ 0x2F) ∨ 0x36 ≤ (fieldOp w).toNat
      ∨ (((fieldOp w).toNat ≤ 0x0E ∨ (0x10 ≤ (fieldOp w).toNat ∧ (fieldOp w).toNat ≤ 0x17) ∨ (fieldOp w).toNat = 0x22) ∧
        fieldM w = false ∧ fieldLow10 w ≠ 0#10)
      ∨ (((fieldOp w).toNat = 0x0D ∨ (fieldOp w).toNat = 0x0E) ∧ fieldRd w ≠ 0#5)
      ∨ ((fieldOp w).toNat = 0x20 ∧ (fieldCond w).toNat = 15)
      ∨ (((fieldOp w).toNat = 0x30 ∨ (fieldOp w).toNat = 0x32 ∨ (fieldOp w).toNat = 0x35) ∧ fieldLow26 w ≠ 0#26)
      ∨ ((fieldOp w).toNat = 0x31 ∧ (fieldRd w ≠ 0#5 ∨ fieldRs1 w ≠ 0#5 ∨ fieldM w = false))
      ∨ ((fieldOp w).toNat = 0x33 ∧ (fieldRs1 w ≠ 0#5 ∨ fieldM w = false ∨ (fieldImm15 w).toNat > 6))
      ∨ ((fieldOp w).toNat = 0x34 ∧ (fieldRd w ≠ 0#5 ∨ fieldM w = false ∨ (fieldImm15 w).toNat > 5)) := by
  simp only [IllegalWord, ← fieldOp_toNat, ← fieldRd_toNat, ← fieldRs1_toNat, ← fieldM_toNat, ← fieldImm15_toNat,
    ← fieldCond_toNat, ← fieldLow10_toNat, ← fieldLow26_toNat, Bool.toNat_eq_zero, ne_eq, field_toNat_eq_zero]

theorem unusedBits_of_decodeRI_error {formR : RegIdx → Instr} {formI : BitVec 15 → Instr}
    (h : decodeRI w formR formI = .error e) : fieldM w = false ∧ fieldLow10 w ≠ 0#10 := by
  unfold decodeRI at h
  split at h
  next => cases h
  next m =>
    split at h
    next => cases h
    next low => exact ⟨Bool.eq_false_of_not_eq_true m, low⟩

theorem illegalWord_of_decodeArith_error (family : (fieldOp w).toNat / 16 = 0) (h : decodeArith w = .error e) :
    IllegalWord w := by
  rw [illegalWord_iff]
  have range := Nat.mod_lt (fieldOp w).toNat (show 16 > 0 by decide)
  unfold decodeArith at h
  split at h
  case h_14 | h_15 =>
    dsimp only at h
    split at h
    next => exact .inr (.inr (.inl ⟨by omega, unusedBits_of_decodeRI_error h⟩))
    next rd => exact .inr (.inr (.inr (.inl ⟨by omega, rd⟩)))
  case h_16 => cases h
  case h_17 => grind
  all_goals exact .inr (.inr (.inl ⟨by omega, unusedBits_of_decodeRI_error h⟩))

theorem illegalWord_of_decodeMemory_error (family : (fieldOp w).toNat / 16 = 1) (h : decodeMemory w = .error e) :
    IllegalWord w := by
  rw [illegalWord_iff]
  have range := Nat.mod_lt (fieldOp w).toNat (show 16 > 0 by decide)
  unfold decodeMemory at h
  split at h
  case h_17 => grind
  case h_1 | h_2 | h_3 | h_4 | h_5 | h_6 | h_7 | h_8 =>
    exact .inr (.inr (.inl ⟨by omega, unusedBits_of_decodeRI_error h⟩))
  all_goals cases h

theorem reservedCondition_of_decodeBcc_error (h : decodeBcc w = .error e) : (fieldCond w).toNat = 15 := by
  have range := (fieldCond w).isLt
  unfold decodeBcc at h
  split at h
  case h_16 => grind
  all_goals cases h

theorem illegalWord_of_decodeBranch_error (family : (fieldOp w).toNat / 16 = 2) (h : decodeBranch w = .error e) :
    IllegalWord w := by
  rw [illegalWord_iff]
  unfold decodeBranch at h
  split at h
  case h_1 =>
    have op : (fieldOp w).toNat = 0x20 := by omega
    simp [op, reservedCondition_of_decodeBcc_error h]
  case h_2 | h_4 => cases h
  case h_3 => exact .inr (.inr (.inl ⟨by omega, unusedBits_of_decodeRI_error h⟩))
  case h_5 => exact .inl (by grind)

theorem unusedBits_of_decodeS_error {i : Instr} (h : decodeS w i = .error e) : fieldLow26 w ≠ 0#26 := by
  unfold decodeS at h
  split at h
  next => cases h
  next low => exact low

theorem fixedField_of_decodeMfsr_error (h : decodeMfsr w = .error e) :
    fieldRs1 w ≠ 0#5 ∨ fieldM w = false ∨ (fieldImm15 w).toNat > 6 := by
  unfold decodeMfsr at h
  split at h
  next =>
    split at h
    case h_8 => exact .inr (.inr (by grind))
    all_goals cases h
  next fixed => grind

theorem fixedField_of_decodeMtsr_error (h : decodeMtsr w = .error e) :
    fieldRd w ≠ 0#5 ∨ fieldM w = false ∨ (fieldImm15 w).toNat > 5 := by
  unfold decodeMtsr at h
  split at h
  next =>
    split at h
    case h_7 => exact .inr (.inr (by grind))
    all_goals cases h
  next fixed => grind

theorem illegalWord_of_decodeSystem_error (family : (fieldOp w).toNat / 16 = 3) (h : decodeSystem w = .error e) :
    IllegalWord w := by
  rw [illegalWord_iff]
  unfold decodeSystem at h
  split at h
  case h_1 | h_3 | h_6 =>
    have op : (fieldOp w).toNat = 0x30 ∨ (fieldOp w).toNat = 0x32 ∨ (fieldOp w).toNat = 0x35 := by omega
    exact .inr (.inr (.inr (.inr (.inr (.inl ⟨op, unusedBits_of_decodeS_error h⟩)))))
  case h_2 =>
    have op : (fieldOp w).toNat = 0x31 := by omega
    split at h
    next => cases h
    next fixed =>
      have clause : fieldRd w ≠ 0#5 ∨ fieldRs1 w ≠ 0#5 ∨ fieldM w = false := by grind
      simpa [op] using clause
  case h_4 =>
    have op : (fieldOp w).toNat = 0x33 := by omega
    simpa [op] using fixedField_of_decodeMfsr_error h
  case h_5 =>
    have op : (fieldOp w).toNat = 0x34 := by omega
    simpa [op] using fixedField_of_decodeMtsr_error h
  case h_7 => exact .inr (.inl (by grind))

theorem illegalWord_of_decode_error (h : decode w = .error e) : IllegalWord w := by
  have range := (fieldOp w).isLt
  unfold decode at h
  split at h
  case h_1 family => exact illegalWord_of_decodeArith_error family h
  case h_2 family => exact illegalWord_of_decodeMemory_error family h
  case h_3 family => exact illegalWord_of_decodeBranch_error family h
  case h_4 family => exact illegalWord_of_decodeSystem_error family h
  case h_5 => grind

end

/-- Settles O3: each clause is rejected, and each error of the decoder is one of the clauses. -/
theorem decodeRejectsExactlyTheIllegalWords : Obligations.DecodeRejectsExactlyTheIllegalWords := fun _ =>
  ⟨fun ⟨_, rejected⟩ => illegalWord_of_decode_error rejected, decode_error_of_illegalWord⟩

/-- Settles O4: the decoder computes on each of the ten words. -/
theorem sampleWordsDecode : Obligations.SampleWordsDecode := by
  unfold Obligations.SampleWordsDecode
  decide

end Sys2Proof.Machine

/-! The statements over all instructions and all steps: what an instruction leaves unchanged (spec/10_state.md sections 1-5,
spec/20_memory.md section 3), and the invariant (spec/10_state.md R25, R41, spec/20_memory.md R50). -/

namespace Sys2Proof.Machine

/-! ### What taking a trap and applying an effect leave of what was written -/

/-- The construction parameters, the registers, the flags and memory are as before: what no trap and no halt writes. -/
structure SameData (s t : State) : Prop where
  cfg : t.cfg = s.cfg
  regs : t.regs = s.regs
  flags : t.flags = s.flags
  mem : t.mem = s.mem

theorem vectorTrap_sameData (tr : Trap) (epc : Word) (s : State) : SameData s (vectorTrap tr epc s).1 := by
  rcases vectorTrap_state tr epc s with ⟨_, h⟩ | ⟨_, _, h⟩ <;> rw [h] <;> exact ⟨rfl, rfl, rfl, rfl⟩

theorem takeSync_sameData (tr : Trap) (s : State) : SameData s (takeSync tr s).1 := by
  rcases takeSync_state tr s with h | h | ⟨_, _, h⟩ <;> rw [h] <;> exact ⟨rfl, rfl, rfl, rfl⟩

theorem applyEffect_sameData (r : State × Effect) : SameData r.1 (applyEffect r).1 := by
  unfold applyEffect
  split
  case h_3 tr _ => exact takeSync_sameData tr r.1
  all_goals exact ⟨rfl, rfl, rfl, rfl⟩

/-! ### What an instruction's own writes leave -/

/-- The construction parameters, pc and the halted state are as before: what no instruction writes by itself. -/
structure SameCourse (s t : State) : Prop where
  cfg : t.cfg = s.cfg
  pc : t.pc = s.pc
  halted : t.halted = s.halted
  haltReason : t.haltReason = s.haltReason

section
variable {i : Instr} {s : State} {r : State × Effect}

theorem EffectShape.sameCourse (shape : EffectShape i s r) : SameCourse s r.1 := by
  cases shape with
  | writesReg | writesRegAndFlags | links | writesCsr => constructor <;> simp
  | traps | writesOnlyFlags | stores | jumps | halts | returns | writesNothing => exact ⟨rfl, rfl, rfl, rfl⟩

theorem EffectShape.reg_eq {j : RegIdx} (shape : EffectShape i s r) (other : destReg i ≠ some j) : r.1.reg j = s.reg j := by
  have ne {rd : RegIdx} (dest : destReg i = some rd) : j ≠ rd := fun e => other (e ▸ dest)
  cases shape with
  | writesReg rd v dest => exact s.reg_setReg_of_ne v (ne dest)
  | writesRegAndFlags rd v f dest => exact s.reg_setReg_of_ne v (ne dest)
  | links rd v t dest => exact s.reg_setReg_of_ne v (ne dest)
  | writesCsr c v => exact s.setCsr_reg c v j
  | traps | writesOnlyFlags | stores | jumps | halts | returns | writesNothing => rfl

theorem EffectShape.flags_eq (shape : EffectShape i s r) (none : writesFlags i = false) : r.1.flags = s.flags := by
  have absent (flags : writesFlags i = true) : False := by simp [none] at flags
  cases shape with
  | writesReg rd v => exact s.setReg_flags rd v
  | links rd v => exact s.setReg_flags rd v
  | writesRegAndFlags _ _ _ _ flags | writesOnlyFlags _ flags => exact (absent flags).elim
  | returns is => exact (absent (is ▸ rfl)).elim
  | writesCsr c v _ _ flags =>
    cases c with
    | flags => exact (absent (flags rfl)).elim
    | status | cause | eaddr | epc | eflags | ipend => rfl
  | traps | stores | jumps | halts | writesNothing => rfl

theorem EffectShape.read_mem_eq {a : Nat} (shape : EffectShape i s r)
    (outside : ∀ ea n rd, storeAccess i s = some (ea, n, rd) → a < ea.toNat ∨ ea.toNat + n ≤ a) :
    Memory.read r.1.mem a = Memory.read s.mem a := by
  cases shape with
  | stores ea n rd access => exact Memory.read_writeLE_of_outside s.mem ea.toNat _ (outside ea n rd access)
  | writesReg rd v => rw [s.setReg_mem]
  | writesRegAndFlags rd v => rw [State.setFlags_mem, s.setReg_mem]
  | links rd v => rw [s.setReg_mem]
  | writesCsr c v => rw [s.setCsr_mem]
  | traps | writesOnlyFlags | jumps | halts | returns | writesNothing => rfl

/-- Untrapped, only HALT, RTI and the MTSR of a CSR other than FLAGS write what `SameControl` lists. -/
theorem EffectShape.sameControl (shape : EffectShape i s r) (untrapped : ∀ tr, r.2 ≠ .trap tr)
    (none : writesControl i = false) : SameControl s (applyEffect r).1 := by
  cases shape with
  | traps tr => exact absurd rfl (untrapped tr)
  | writesReg rd v => exact (setReg_next_done s rd v).control
  | writesRegAndFlags rd v f => exact (setReg_setFlags_next_done s rd v f).control
  | writesOnlyFlags f => exact (setFlags_next_done s f).control
  | links rd v t => exact (setReg_jump_done s rd v t).control
  | halts is | returns is => subst is; cases none
  | writesCsr c v _ allowed =>
    rcases allowed with rfl | ⟨_, writes⟩
    · constructor <;> rfl
    · simp [none] at writes
  | stores | jumps | writesNothing => constructor <;> rfl

end

/-! ### The frames -/

/-- Settles O29: a register is written by the pseudocode of its instruction only, and no trap or halt writes one. -/
theorem registerFrame : Obligations.RegisterFrame := by
  intro i s t r next other
  rw [exec_next next, State.reg_congr (applyEffect_sameData _).regs]
  exact (execute_shape i s).reg_eq other

/-- Settles O30: likewise for the flags. -/
theorem flagFrame : Obligations.FlagFrame := by
  intro i s t next none
  rw [exec_next next, (applyEffect_sameData _).flags]
  exact (execute_shape i s).flags_eq none

/-- Settles O31: likewise for memory, where only a store writes. -/
theorem memoryFrame : Obligations.MemoryFrame := by
  intro i s t a next outside
  rw [exec_next next, (applyEffect_sameData _).mem]
  exact (execute_shape i s).read_mem_eq outside

/-- Settles O32, by the shapes of an effect that does not trap. -/
theorem controlFrame : Obligations.ControlFrame := by
  intro i s t next untrapped none
  rw [exec_next next]
  exact (execute_shape i s).sameControl untrapped none

theorem exec_cfg {i : Instr} {s t : State} (next : exec i s = .next t) : t.cfg = s.cfg := by
  rw [exec_next next, (applyEffect_sameData _).cfg]
  exact (execute_shape i s).sameCourse.cfg

theorem step_cfg {s t : State} (next : step s = .next t) : t.cfg = s.cfg := by
  cases step_shape next with
  | stays | haltsOnRequest => rfl
  | vectorsInterrupt => exact (vectorTrap_sameData trapExternal s.pc s).cfg
  | trapsOnFetch tr => exact (takeSync_sameData tr s).cfg
  | runs i => exact exec_cfg (exec_eq_execute i s)

/-- Settles O50: neither an instruction's writes nor a trap or halt touch the parameters. -/
theorem parametersAreConstant : Obligations.ParametersAreConstant := by
  rintro s t (next | ⟨i, next⟩)
  · exact step_cfg next
  · exact exec_cfg next

/-! ### The invariant -/

section
variable {s t : State}

/-- A good target, in the form in which the invariant speaks of pc. -/
theorem aligned_inside_of_check {a : Word} (passes : s.check a 4 = none) : a.toNat % 4 = 0 ∧ a.toNat ≤ s.cfg.memCapacity := by
  obtain ⟨inside, aligned⟩ := checkAccess_eq_none.mp passes
  exact ⟨aligned, by omega⟩

/-- Writes that leave memory canonical keep the invariant. -/
theorem State.Inv.of_sameCourse (inv : s.Inv) (same : SameCourse s t)
    (canonical : Memory.wf s.cfg.memCapacity t.mem = true) : t.Inv where
  cfg := same.cfg ▸ inv.cfg
  mem := same.cfg ▸ canonical
  pcAligned := same.pc ▸ inv.pcAligned
  pcInside := same.cfg ▸ same.pc ▸ inv.pcInside
  reason := same.halted ▸ same.haltReason ▸ inv.reason

theorem State.Inv.jump {a : Word} (inv : s.Inv) (passes : s.check a 4 = none) : State.Inv { s with pc := a } where
  cfg := inv.cfg
  mem := inv.mem
  pcAligned := (aligned_inside_of_check passes).1
  pcInside := (aligned_inside_of_check passes).2
  reason := inv.reason

/-- The next instruction's address: at the top of a memory of 2^32 bytes it wraps to 0 (spec/10_state.md R25). -/
theorem State.Inv.advance (inv : s.Inv) (fetched : s.check s.pc 4 = none) : State.Inv { s with pc := s.pc + 4#32 } := by
  obtain ⟨inside, aligned⟩ := checkAccess_eq_none.mp fetched
  have wraps : (s.pc + 4#32).toNat = (s.pc.toNat + 4) % 2 ^ 32 := BitVec.toNat_add s.pc 4#32
  exact
    { cfg := inv.cfg
      mem := inv.mem
      pcAligned := by rw [wraps]; omega
      pcInside := by rw [wraps]; exact (Nat.mod_le _ _).trans inside
      reason := inv.reason }

theorem State.Inv.haltWith (inv : s.Inv) (r : HaltReason) : (haltWith r s).1.Inv where
  cfg := inv.cfg
  mem := inv.mem
  pcAligned := inv.pcAligned
  pcInside := inv.pcInside
  reason := rfl

/-- The construction checks passed the handler of every cause but the double fault, which no trap has. -/
theorem State.Inv.enterHandler {tr : Trap} {epc h : Word} (inv : s.Inv) (double : tr.cause ≠ .doubleFault)
    (handler : VectorTable.handler s.cfg.vectors tr.cause = some h) : (enterHandler tr epc h s).Inv := by
  obtain ⟨_, _, _, handlers⟩ := Config.valid_iff.mp inv.cfg
  obtain ⟨aligned, inside⟩ := handlerOk_iff.mp (handlers tr.cause double) h handler
  exact { cfg := inv.cfg, mem := inv.mem, pcAligned := aligned, pcInside := Nat.le_of_add_right_le inside, reason := inv.reason }

theorem State.Inv.vectorTrap {tr : Trap} {epc : Word} (inv : s.Inv) (double : tr.cause ≠ .doubleFault) :
    (vectorTrap tr epc s).1.Inv := by
  rcases vectorTrap_state tr epc s with ⟨_, result⟩ | ⟨h, handler, result⟩ <;> rw [result]
  · exact inv.haltWith _
  · exact inv.enterHandler double handler

theorem State.Inv.takeSync {tr : Trap} (inv : s.Inv) (double : tr.cause ≠ .doubleFault) : (takeSync tr s).1.Inv := by
  rcases takeSync_state tr s with result | result | ⟨h, handler, result⟩ <;> rw [result]
  · exact inv.haltWith _
  · exact inv.haltWith _
  · exact inv.enterHandler double handler

end

section
variable {i : Instr} {s : State} {r : State × Effect}

/-- A store writes only past its check, so below the capacity. -/
theorem EffectShape.wf_mem (shape : EffectShape i s r) (canonical : Memory.wf s.cfg.memCapacity s.mem = true) :
    Memory.wf s.cfg.memCapacity r.1.mem = true := by
  cases shape with
  | stores ea n rd _ passes => exact Memory.wf_writeLE _ canonical (checkAccess_eq_none.mp passes).1
  | writesReg rd v => rwa [s.setReg_mem]
  | writesRegAndFlags rd v => rwa [State.setFlags_mem, s.setReg_mem]
  | links rd v => rwa [s.setReg_mem]
  | writesCsr c v => rwa [s.setCsr_mem]
  | traps | writesOnlyFlags | jumps | halts | returns | writesNothing => exact canonical

theorem EffectShape.check_of_jump {a : Word} (shape : EffectShape i s r) (jumps : r.2 = .jump a) : s.check a 4 = none := by
  cases shape with
  | jumps t passes | links _ _ t _ passes | returns _ _ passes => cases jumps; exact passes
  | traps | writesReg | writesRegAndFlags | writesOnlyFlags | stores | halts | writesCsr | writesNothing => cases jumps

theorem EffectShape.ne_doubleFault_of_trap {tr : Trap} (shape : EffectShape i s r) (traps : r.2 = .trap tr) :
    tr.cause ≠ .doubleFault := by
  cases shape with
  | traps tr _ double => cases traps; exact double
  | writesReg | writesRegAndFlags | writesOnlyFlags | stores | writesCsr | writesNothing => cases traps
  | jumps | links | halts | returns => cases traps

/-- The written state has the invariant, and each effect moves it to a checked pc or halts it. -/
theorem State.Inv.applyEffect (inv : s.Inv) (fetched : s.check s.pc 4 = none) (shape : EffectShape i s r) :
    (applyEffect r).1.Inv := by
  have same := shape.sameCourse
  have written : r.1.Inv := inv.of_sameCourse same (shape.wf_mem inv.mem)
  have check (a : Word) : r.1.check a 4 = s.check a 4 := by rw [State.check, State.check, same.cfg]
  unfold Machine.applyEffect
  split
  case h_1 => exact written.advance (by rw [check, same.pc, fetched])
  case h_2 a jumps => exact written.jump (by rw [check, shape.check_of_jump jumps])
  case h_3 tr traps => exact written.takeSync (shape.ne_doubleFault_of_trap traps)
  case h_4 => exact written.haltWith .halt

theorem check_of_boundary_run (fetched : boundary s = .run i) : s.check s.pc 4 = none := by
  rcases boundary_cases s with ⟨_, settled⟩ | ⟨_, _, settled⟩ | ⟨_, _, _, _, settled⟩ | ⟨_, _, _, hfetch⟩
  · cases settled.symm.trans fetched
  · cases settled.symm.trans fetched
  · cases settled.symm.trans fetched
  · rcases hfetch with ⟨_, _, settled⟩ | ⟨_, passes, _⟩ | ⟨_, passes, _⟩
    · cases settled.symm.trans fetched
    · exact passes
    · exact passes

end

/-- Settles O51, by the shapes of a step. -/
theorem stepKeepsInvariant : Obligations.StepKeepsInvariant := by
  intro s t inv next
  cases step_shape next with
  | stays => exact inv
  | haltsOnRequest =>
    have cleared : State.Inv { s with haltReq := false } := inv.of_sameCourse ⟨rfl, rfl, rfl, rfl⟩ inv.mem
    exact cleared.haltWith .externalHalt
  | vectorsInterrupt => exact inv.vectorTrap (by decide)
  | trapsOnFetch tr _ _ _ double => exact inv.takeSync double
  | runs i _ _ fetched => exact inv.applyEffect (check_of_boundary_run fetched) (execute_shape i s)

/-- Settles O52: the standard parameters pass the construction checks. -/
theorem resetSatisfiesInvariant : Obligations.ResetSatisfiesInvariant := State.initial_inv (by decide)

section
variable {s t : State}

theorem State.Inv.loadImage {bytes : List Byte} {origin : Word} (inv : s.Inv) (loaded : loadImage bytes origin s = some t) :
    t.Inv := by
  obtain ⟨fits, rfl⟩ := loadImage_eq_some loaded
  exact inv.of_sameCourse ⟨rfl, rfl, rfl, rfl⟩ (Memory.wf_writeBytes inv.mem fits)

theorem injectInterrupt_eq_some {c : Cause} (injected : injectInterrupt c s = some t) :
    c = .externalInterrupt ∧ t = { s with irq := true } := by
  unfold injectInterrupt at injected
  split at injected
  next external => exact ⟨external, (Option.some.inj injected).symm⟩
  next => cases injected

end

/-- Settles O55: an image is written below the capacity, and the other two calls write a latch. -/
theorem hostCallsKeepInvariant : Obligations.HostCallsKeepInvariant := by
  refine fun s inv => ⟨fun _ _ _ => inv.loadImage, fun c t injected => ?_, inv.of_sameCourse ⟨rfl, rfl, rfl, rfl⟩ inv.mem⟩
  obtain ⟨rfl, rfl⟩ := injectInterrupt_eq_some injected
  exact ⟨inv.of_sameCourse ⟨rfl, rfl, rfl, rfl⟩ inv.mem, rfl, rfl⟩

end Sys2Proof.Machine

/-! The statements about spec/60_exceptions.md over one step (R205, R212): which instruction runs, the traps of the fetch and of the
interrupt, the StepResult (R223), INH (R217), trap entry undone by RTI (R210, R183), and `run` as iterated steps (R224). -/

namespace Sys2Proof.Machine

/-! ### The instruction that a step runs -/

section
variable {s : State} {i : Instr}

theorem step_of_decoded (runs : Runs s) (access : AccessOk s s.pc 4) (decoded : decode s.fetchWord = .ok i) :
    step s = exec i s := by
  rw [exec_eq_execute]
  exact step_of_run (boundary_of_decoded runs (checkAccess_eq_none.mpr access) decoded)

/-- The head of a byte sequence decodes as the word that its first four bytes make. -/
theorem decode_of_decodeBytes {b0 b1 b2 b3 : Byte} {rest rest' : List Byte}
    (h : decodeBytes (b0 :: b1 :: b2 :: b3 :: rest) = .ok (i, rest')) : decode (wordOfBytes b0 b1 b2 b3) = .ok i := by
  unfold decodeBytes at h
  cases decoded : decode (wordOfBytes b0 b1 b2 b3) with
  | error e => simp [decoded, Except.map] at h
  | ok j => simp [decoded, Except.map] at h; rw [h.1]

/-- The four bytes of a word, laid end to end again, make the word. -/
theorem append_bytesOfWord (w : Word) :
    w.extractLsb' 24 8 ++ w.extractLsb' 16 8 ++ w.extractLsb' 8 8 ++ w.extractLsb' 0 8 = w := by
  apply BitVec.eq_of_getLsbD_eq
  intro k hk
  simp only [BitVec.getLsbD_append]
  interval_cases k <;> simp

/-- The fetch at the origin of a loaded instruction reads its word back. -/
theorem fetchWord_of_writeBytes {w : Word} (canonical : Memory.wf s.cfg.memCapacity s.mem = true)
    (access : AccessOk s s.pc 4) :
    State.fetchWord { s with mem := Memory.writeBytes s.mem s.pc.toNat (bytesOfWord w) } = w := by
  have byte (k : Nat) (hk : k < 4) := Memory.read_writeBytes_inside (bs := bytesOfWord w) canonical access.1 hk
  rw [State.fetchWord_eq_append, byte 3 (by decide), byte 2 (by decide), byte 1 (by decide)]
  have lowest := byte 0 (by decide)
  rw [Nat.add_zero] at lowest
  rw [lowest]
  exact append_bytesOfWord w

end

/-- Settles O35: the four bytes are the word that the fetch reads. -/
theorem stepRunsDecodedInstruction : Obligations.StepRunsDecodedInstruction := by
  intro s i runs access bytes
  refine step_of_decoded runs access ?_
  rw [State.fetchWord, State.memRead, Memory.readLE_four]
  exact decode_of_decodeBytes bytes

/-- Settles O36: the fetch reads the loaded word back, and it decodes to its instruction. -/
theorem loadedInstructionRuns : Obligations.LoadedInstructionRuns := by
  intro s t i canonical runs access loaded
  obtain ⟨_, rfl⟩ := loadImage_eq_some loaded
  refine step_of_decoded runs access ?_
  rw [encodeBytes, fetchWord_of_writeBytes canonical access]
  exact decodeOfEncodeIsIdentity i

/-! ### The traps that settle a step -/

theorem step_of_fetchFault_taken {s : State} {k : FaultKind} (runs : Runs s) (fails : s.check s.pc 4 = some k) :
    ∃ t, step s = .next t ∧ TrapTaken (trapMemory k s.pc) (trapMemory k s.pc).causeWord s t :=
  ⟨_, step_of_fetchFault runs fails, takeSync_taken s (by simp [trapMemory])⟩

/-- Settles O37: the two failures of the check at pc, bounds first. -/
theorem fetchFaultTraps : Obligations.FetchFaultTraps := by
  intro s runs
  obtain ⟨outOfBounds, misaligned, _⟩ := causeWords s.pc 0#32 0#15
  refine ⟨fun past => ?_, fun inside unaligned => ?_⟩
  · exact outOfBounds ▸ step_of_fetchFault_taken runs (checkAccess_eq_outOfBounds.mpr past)
  · exact misaligned ▸ step_of_fetchFault_taken runs (checkAccess_eq_misaligned.mpr ⟨inside, unaligned⟩)

theorem boundary_of_interrupt {s : State} (running : s.halted = false) (noRequest : s.haltReq = false) (pending : s.irq = true)
    (enabled : s.status.ie = true) : boundary s = .settled (vectorTrap trapExternal s.pc s) := by
  rw [boundary, if_neg (by simp [running]), if_neg (by simp [noRequest]), if_pos ⟨pending, enabled⟩]

/-- Settles O39: the boundary vectors the interrupt before the fetch. -/
theorem externalInterruptIsVectored : Obligations.ExternalInterruptIsVectored := by
  intro s running noRequest pending enabled
  have vectored := step_of_settled (boundary_of_interrupt running noRequest pending enabled)
  obtain ⟨_, _, _, _, _, _, causeWord⟩ := causeWords 0#32 0#32 0#15
  refine ⟨fun h handler => ⟨_, vectored, ?_⟩, fun unhandled => ?_⟩
  · rw [vectorTrap_of_handler (tr := trapExternal) handler]
    exact ⟨causeWord ▸ enterHandler_entered trapExternal s.pc h s, enterHandler_irq trapExternal s.pc h s⟩
  · rw [vectored, vectorTrap_of_unhandled (tr := trapExternal) unhandled]
    rfl

/-! ### The StepResult (spec/60_exceptions.md R223) -/

/-- Settles O43: both a settled boundary and an instruction answer a next state. -/
theorem everyStepAnswersNext : Obligations.EveryStepAnswersNext := by
  intro s
  cases start : boundary s with
  | settled r => rw [step_of_settled start, hostStep_of_settled start]
  | run i => rw [step_of_run start, hostStep_of_run start]

/-- What the StepResult of `r` tells of a step from `s` to the state of `r`. -/
def TellsOutcome (s : State) (r : State × StepResult) : Prop :=
  match r.2 with
  | .alreadyHalted => s.halted = true ∧ r.1 = s
  | .halted q => s.halted = false ∧ r.1.halted = true ∧ r.1.haltReason = some q
  | .interrupted => s.irq = true ∧ s.status.ie = true ∧ r.1.irq = false ∧
      s.cfg.vectors.externalInterrupt = some r.1.pc ∧ HandlerEntered 0x00000005#32 0#32 s.pc r.1.pc s r.1
  | .trapped tr => VectorTable.handler s.cfg.vectors tr.cause = some r.1.pc ∧
      HandlerEntered (BitVec.ofNat 32 (256 * tr.detail.toNat + (Cause.code tr.cause).toNat)) tr.value s.pc r.1.pc s r.1 ∧
      r.1.irq = s.irq
  | .executed => r.1.halted = false ∧ ∃ i, boundary s = .run i ∧ ∀ tr, (execute i s).2 ≠ .trap tr

section
variable {s : State}

theorem haltWith_tellsOutcome (running : s.halted = false) (q : HaltReason) (written : State) :
    TellsOutcome s (haltWith q written) := ⟨running, rfl, rfl⟩

theorem takeSync_tellsOutcome {tr : Trap} (running : s.halted = false) (external : tr.cause ≠ .externalInterrupt) :
    TellsOutcome s (takeSync tr s) := by
  unfold takeSync
  split
  · exact haltWith_tellsOutcome running _ s
  · cases handler : VectorTable.handler s.cfg.vectors tr.cause with
    | none => exact vectorTrap_of_unhandled handler ▸ haltWith_tellsOutcome running _ s
    | some h =>
      rw [vectorTrap_of_handler handler, if_neg external]
      exact ⟨handler, tr.causeWord_eq ▸ enterHandler_entered tr s.pc h s,
        (enterHandler_irq tr s.pc h s).trans (if_neg external)⟩

theorem vectorTrap_external_tellsOutcome (running : s.halted = false) (pending : s.irq = true) (enabled : s.status.ie = true) :
    TellsOutcome s (vectorTrap trapExternal s.pc s) := by
  obtain ⟨_, _, _, _, _, _, causeWord⟩ := causeWords 0#32 0#32 0#15
  cases handler : VectorTable.handler s.cfg.vectors trapExternal.cause with
  | none => exact vectorTrap_of_unhandled handler ▸ haltWith_tellsOutcome running _ s
  | some h =>
    rw [vectorTrap_of_handler handler]
    exact ⟨pending, enabled, enterHandler_irq trapExternal s.pc h s, handler,
      causeWord ▸ enterHandler_entered trapExternal s.pc h s⟩

theorem applyEffect_tellsOutcome {i : Instr} (running : s.halted = false) (fetched : boundary s = .run i) :
    TellsOutcome s (applyEffect (execute i s)) := by
  have written : (execute i s).1.halted = false := (execute_shape i s).sameCourse.halted.trans running
  cases effect : (execute i s).2 with
  | trap tr => exact applyEffect_of_trap effect ▸ takeSync_tellsOutcome running (execute_of_trap effect).2
  | halt =>
    rw [applyEffect, effect]
    exact haltWith_tellsOutcome running .halt _
  | next | jump =>
    rw [applyEffect, effect]
    exact ⟨written, i, fetched, fun tr traps => by simp [effect] at traps⟩

end

/-- Settles O44, in the order of the boundary. -/
theorem stepResultTellsTheOutcome : Obligations.StepResultTellsTheOutcome := by
  intro s
  show TellsOutcome s (hostStep s)
  rcases boundary_cases s with ⟨halted, start⟩ | ⟨running, _, start⟩ | ⟨running, _, pending, enabled, start⟩ |
    ⟨running, _, _, hfetch⟩
  · exact hostStep_of_settled start ▸ ⟨halted, rfl⟩
  · exact hostStep_of_settled start ▸ haltWith_tellsOutcome running _ _
  · exact hostStep_of_settled start ▸ vectorTrap_external_tellsOutcome running pending enabled
  · rcases hfetch with ⟨k, _, start⟩ | ⟨e, _, _, start⟩ | ⟨i, _, _, start⟩
    · exact hostStep_of_settled start ▸ takeSync_tellsOutcome running (by simp [trapMemory])
    · exact hostStep_of_settled start ▸ takeSync_tellsOutcome running (by simp [trapUndecoded])
    · exact hostStep_of_run start ▸ applyEffect_tellsOutcome running start

/-! ### INH (spec/60_exceptions.md R217) and the return from a handler -/

/-- Settles O46: of the shapes of a write to STATUS, entry alone sets INH and RTI alone clears it. -/
theorem inHandlerFromTrapEntryUntilRti : Obligations.InHandlerFromTrapEntryUntilRti := by
  intro s t next
  cases step_statusShape next with
  | keeps status =>
    exact ⟨fun set cleared => by simp [status, set] at cleared, fun clear set => by simp [status, clear] at set⟩
  | enters status handler => exact ⟨fun _ cleared => by simp [status, Status.enter] at cleared, fun _ _ => handler⟩
  | restores fetched _ status => exact ⟨fun _ _ => fetched, fun _ set => by simp [status, Status.leave] at set⟩
  | writes _ _ _ status =>
    exact ⟨fun set cleared => by simp [status, Status.write, set] at cleared,
      fun clear set => by simp [status, Status.write, clear] at set⟩

theorem AccessCases.done_of_ok {i : Instr} {s t : State} {ea : Word} {n : Nat} {Done : State → Prop}
    (access : AccessCases i s ea n Done) (ok : AccessOk s ea n) (next : exec i s = .next t) : Done t := by
  obtain ⟨completes, _⟩ := access
  obtain ⟨t', next', done⟩ := completes ok
  cases next.symm.trans next'
  exact done

/-- Settles O25: entry leaves EPC a good target and the supervisor level, so RTI returns, to what entry saved. -/
theorem trapEntryThenRtiResumes : Obligations.TrapEntryThenRtiResumes := by
  rintro tr s t u ⟨h, handler⟩ access rfl next
  rw [vectorTrap_of_handler handler] at next
  obtain ⟨_, rti⟩ := rtiRestores
  obtain ⟨_, returns⟩ := rti (enterHandler tr s.pc h s)
  have done := (returns rfl).done_of_ok access next
  have flags : u.flags = Flags.ofBits s.flags.bits := done.flags
  exact ⟨done.pc, flags.trans (Flags.ofBits_bits s.flags), by rw [done.status]; rfl, by rw [done.status]; rfl,
    by rw [done.status], done.regs, done.mem⟩

/-! ### `run` as iterated steps (spec/60_exceptions.md R224, R225) -/

theorem coreRun_succ_of_next (M : Host.Core) (n : Nat) {s t : M.State} (next : M.step s = .next t) :
    M.run (n + 1) s = M.run n t := by
  rw [Host.Core.run, next]

/-- Settles O58, by induction on the number of steps: a halted core steps to itself, so stopping there loses nothing. -/
theorem runIsIteratedStep : Obligations.RunIsIteratedStep := by
  intro n
  induction n with
  | zero =>
    intro s
    cases h : s.halted with
    | true => rw [run_of_halted h]; rfl
    | false => rw [run_zero_of_running h]; rfl
  | succ n ih =>
    intro s
    refine (coreRun_succ_of_next Sys2Proof.core n (everyStepAnswersNext s)).trans ((ih _).trans ?_)
    cases h : s.halted with
    | true => rw [hostStep_of_settled (boundary_of_halted h), run_of_halted h, run_of_halted h]
    | false => rw [run_succ_of_running h]

end Sys2Proof.Machine

/-! The statements about spec/60_exceptions.md section 7: what a step in user mode can write of the supervisor's state (R221, R222), and
that what it does visibly depends on no supervisor record. -/

namespace Sys2Proof.Machine

/-! ### What a user step writes of the record -/

/-- STATUS and the record of the last trap are as before. -/
structure SameRecord (s t : State) : Prop where
  status : t.status = s.status
  cause : t.cause = s.cause
  eaddr : t.eaddr = s.eaddr
  epc : t.epc = s.epc
  eflags : t.eflags = s.eflags

/-- The record is as before, or a handler was entered from pc. -/
def RecordKeptOrEntered (s t : State) : Prop :=
  SameRecord s t ∨
    ∃ tr h, VectorTable.handler s.cfg.vectors tr.cause = some h ∧ t = enterHandler tr s.pc h s

section
variable {s : State}

theorem vectorTrap_recordKeptOrEntered (tr : Trap) : RecordKeptOrEntered s (vectorTrap tr s.pc s).1 := by
  rcases vectorTrap_state tr s.pc s with ⟨_, result⟩ | ⟨h, handler, result⟩ <;> rw [result]
  · exact .inl ⟨rfl, rfl, rfl, rfl, rfl⟩
  · exact .inr ⟨tr, h, handler, rfl⟩

theorem takeSync_recordKeptOrEntered (tr : Trap) : RecordKeptOrEntered s (takeSync tr s).1 := by
  rcases takeSync_state tr s with result | result | ⟨h, handler, result⟩ <;> rw [result]
  · exact .inl ⟨rfl, rfl, rfl, rfl, rfl⟩
  · exact .inl ⟨rfl, rfl, rfl, rfl, rfl⟩
  · exact .inr ⟨tr, h, handler, rfl⟩

/-- In user mode an instruction's own writes leave the record: HALT, RTI and the MTSR of a CSR other than FLAGS are privileged. -/
theorem EffectShape.recordKeptOrEntered {i : Instr} {r : State × Effect} (shape : EffectShape i s r)
    (user : s.status.priv = false) : RecordKeptOrEntered s (applyEffect r).1 := by
  have absent (supervisor : s.status.priv = true) : False := by simp [user] at supervisor
  cases shape with
  | traps tr => exact takeSync_recordKeptOrEntered tr
  | halts _ supervisor | returns _ supervisor => exact (absent supervisor).elim
  | writesCsr c v _ allowed =>
    rcases allowed with rfl | ⟨supervisor, _⟩
    · exact .inl ⟨rfl, rfl, rfl, rfl, rfl⟩
    · exact (absent supervisor).elim
  | writesReg | writesRegAndFlags | links => exact .inl (by constructor <;> simp [applyEffect])
  | writesOnlyFlags | stores | jumps | writesNothing => exact .inl ⟨rfl, rfl, rfl, rfl, rfl⟩

theorem step_recordKeptOrEntered {t : State} (user : s.status.priv = false) (next : step s = .next t) :
    RecordKeptOrEntered s t := by
  cases step_shape next with
  | stays | haltsOnRequest => exact .inl ⟨rfl, rfl, rfl, rfl, rfl⟩
  | vectorsInterrupt => exact vectorTrap_recordKeptOrEntered trapExternal
  | trapsOnFetch tr => exact takeSync_recordKeptOrEntered tr
  | runs i => exact (execute_shape i s).recordKeptOrEntered user

end

/-- Settles O45: the entry of a handler is the one write, and it saves pc and the user level. -/
theorem userReachesControlOnlyByTrap : Obligations.UserReachesControlOnlyByTrap := by
  intro s t user next
  rcases step_recordKeptOrEntered user next with ⟨status, cause, eaddr, epc, eflags⟩ | ⟨tr, h, handler, rfl⟩
  · exact .inl ⟨status, cause, eaddr, epc, eflags⟩
  · refine .inr ⟨tr.cause, h, handler, rfl, rfl, ?_⟩
    rw [enterHandler_status, Status.enter, user]

/-! ### Two states that differ in the record alone -/

/-- The same construction parameters and the same to a program in user mode: what can differ is the record. -/
structure UserAlike (s t : State) : Prop extends SameUserView s t where
  cfg : t.cfg = s.cfg

theorem State.withRecord_userAlike (s : State) (pie ppriv : Bool) (cause eaddr epc : Word) (eflags : BitVec 4) :
    UserAlike s (s.withRecord pie ppriv cause eaddr epc eflags) := by
  constructor
  case toSameUserView => constructor <;> rfl
  case cfg => rfl

namespace UserAlike

variable {s t : State}

/-! What a program in user mode reads is the same in both. -/

theorem reg (alike : UserAlike s t) (i : RegIdx) : t.reg i = s.reg i := State.reg_congr alike.regs i

theorem src2 (alike : UserAlike s t) (src : Src2) : t.src2 src = s.src2 src := by
  cases src with
  | reg rs2 => exact alike.reg rs2
  | imm => rfl

theorem ea (alike : UserAlike s t) (addr : MemAddr) : t.ea addr = s.ea addr := by
  cases addr with
  | base rs1 src => simp only [State.ea, alike.reg, alike.src2]
  | abs => rfl

theorem check (alike : UserAlike s t) (a : Word) (n : Nat) : t.check a n = s.check a n := by
  rw [State.check, State.check, alike.cfg]

theorem memRead (alike : UserAlike s t) (a : Word) (n : Nat) : t.memRead a n = s.memRead a n := by
  rw [State.memRead, State.memRead, alike.mem]

theorem fetchWord (alike : UserAlike s t) : t.fetchWord = s.fetchWord := by
  rw [State.fetchWord, State.fetchWord, alike.pc, alike.memRead]

/-! The same write in both leaves them alike. -/

theorem setReg (alike : UserAlike s t) (i : RegIdx) (v : Word) : UserAlike (s.setReg i v) (t.setReg i v) := by
  unfold State.setReg
  split
  · exact alike
  · exact { alike with regs := by simp only [alike.regs] }

theorem setFlags (alike : UserAlike s t) (f : Flags) : UserAlike (s.setFlags f) (t.setFlags f) :=
  { alike with flags := rfl }

theorem memWrite (alike : UserAlike s t) (a : Word) (n : Nat) (v : Word) : UserAlike (s.memWrite a n v) (t.memWrite a n v) :=
  { alike with mem := by rw [State.memWrite_mem, State.memWrite_mem, alike.mem] }

theorem setPc (alike : UserAlike s t) (a : Word) : UserAlike { s with pc := a } { t with pc := a } :=
  { alike with pc := rfl }

theorem haltWith (alike : UserAlike s t) (r : HaltReason) : UserAlike (haltWith r s).1 (haltWith r t).1 :=
  { alike with halted := rfl, haltReason := rfl }

theorem enterHandler (alike : UserAlike s t) (tr : Trap) (epc h : Word) :
    UserAlike (enterHandler tr epc h s) (enterHandler tr epc h t) :=
  { alike with
    pc := rfl, ie := rfl, priv := rfl, inh := rfl
    irq := by rw [enterHandler_irq, enterHandler_irq, alike.irq] }

theorem vectorTrap (alike : UserAlike s t) (tr : Trap) (epc : Word) :
    UserAlike (vectorTrap tr epc s).1 (vectorTrap tr epc t).1 := by
  cases handler : VectorTable.handler s.cfg.vectors tr.cause with
  | none =>
    rw [vectorTrap_of_unhandled handler, vectorTrap_of_unhandled (alike.cfg ▸ handler)]
    exact alike.haltWith _
  | some h =>
    rw [vectorTrap_of_handler handler, vectorTrap_of_handler (alike.cfg ▸ handler)]
    exact alike.enterHandler tr epc h

theorem takeSync (alike : UserAlike s t) (tr : Trap) : UserAlike (takeSync tr s).1 (takeSync tr t).1 := by
  unfold Machine.takeSync
  rw [alike.inh, alike.ie, alike.pc]
  split
  · exact alike.haltWith _
  · exact alike.vectorTrap tr s.pc

end UserAlike

/-! ### The instructions on two such states -/

/-- On alike states the same control effect, and alike states written. -/
def EffectsAlike (r r' : State × Effect) : Prop := UserAlike r.1 r'.1 ∧ r'.2 = r.2

theorem EffectsAlike.applyEffect {r r' : State × Effect} (alike : EffectsAlike r r') :
    UserAlike (applyEffect r).1 (applyEffect r').1 := by
  obtain ⟨written, effect⟩ := alike
  unfold Machine.applyEffect
  rw [effect]
  split
  case h_1 => exact written.pc ▸ written.setPc _
  case h_2 a _ => exact written.setPc a
  case h_3 tr _ => exact written.takeSync tr
  case h_4 => exact written.haltWith .halt

section
variable {s t : State} {f : Word → Word → Word × Flags} {rd rs1 : RegIdx} {src : Src2} {addr : MemAddr}

theorem UserAlike.raise (alike : UserAlike s t) (tr : Trap) : EffectsAlike (raise tr s) (raise tr t) := ⟨alike, rfl⟩

theorem UserAlike.arith (alike : UserAlike s t) : EffectsAlike (arith f rd rs1 src s) (arith f rd rs1 src t) := by
  simp only [Machine.arith, alike.reg, alike.src2]
  exact ⟨(alike.setReg rd _).setFlags _, rfl⟩

theorem UserAlike.flagsOnly (alike : UserAlike s t) : EffectsAlike (flagsOnly f rs1 src s) (flagsOnly f rs1 src t) := by
  simp only [Machine.flagsOnly, alike.reg, alike.src2]
  exact ⟨alike.setFlags _, rfl⟩

theorem UserAlike.divide (alike : UserAlike s t) : EffectsAlike (divide f rd rs1 src s) (divide f rd rs1 src t) := by
  simp only [Machine.divide, alike.src2]
  split
  · exact alike.raise trapDivide
  · exact alike.arith

theorem UserAlike.load {w : Width} {e : Ext} (alike : UserAlike s t) :
    EffectsAlike (load w e rd addr s) (load w e rd addr t) := by
  simp only [Machine.load, alike.ea, alike.check, alike.memRead]
  split
  · exact alike.raise _
  · exact ⟨alike.setReg rd _, rfl⟩

theorem UserAlike.store {w : Width} (alike : UserAlike s t) : EffectsAlike (store w rd addr s) (store w rd addr t) := by
  simp only [Machine.store, alike.ea, alike.check, alike.reg]
  split
  · exact alike.raise _
  · exact ⟨alike.memWrite _ _ _, rfl⟩

theorem UserAlike.transfer {s' t' : State} (alike : UserAlike s t) (linked : UserAlike s' t') (a : Word) :
    EffectsAlike (transfer a s s') (transfer a t t') := by
  simp only [Machine.transfer, alike.check]
  split
  · exact alike.raise _
  · exact ⟨linked, rfl⟩

theorem UserAlike.jumpAndLink {a b : Word} (alike : UserAlike s t) (target : b = a) :
    EffectsAlike (jumpAndLink rd a s) (jumpAndLink rd b t) := by
  rw [Machine.jumpAndLink, Machine.jumpAndLink, target, alike.pc]
  exact alike.transfer (alike.setReg rd _) a

theorem UserAlike.effBcc {c : Cond} {imm22 : BitVec 22} (alike : UserAlike s t) :
    EffectsAlike (effBcc c imm22 s) (effBcc c imm22 t) := by
  unfold Machine.effBcc
  rw [alike.flags, alike.pc]
  split
  · exact alike.transfer alike _
  · exact ⟨alike, rfl⟩

/-- A privileged instruction traps with its own word; of the others, only MFSR of FLAGS and MTSR of FLAGS reach a CSR. -/
theorem UserAlike.execute (alike : UserAlike s t) (user : s.status.priv = false) (i : Instr) :
    EffectsAlike (execute i s) (execute i t) := by
  cases check : privileged i with
  | true =>
    obtain ⟨rest, run⟩ := execute_of_privileged check s
    obtain ⟨rest', run'⟩ := execute_of_privileged check t
    rw [run, run', requireSupervisor_of_user user, requireSupervisor_of_user (alike.priv.trans user)]
    exact alike.raise _
  | false =>
    cases i with
    | addR | addI | subR | subI | andR | andI | orR | orI | xorR | xorI => exact alike.arith
    | shlR | shlI | shrR | shrI | sarR | sarI | mulR | mulI => exact alike.arith
    | divR | divI | divuR | divuI | remR | remI | remuR | remuI => exact alike.divide
    | cmpR | cmpI | tstR | tstI => exact alike.flagsOnly
    | lui rd => exact ⟨alike.setReg rd _, rfl⟩
    | ldbR | ldbI | ldbuR | ldbuI | ldhR | ldhI | ldhuR | ldhuI | ldwR | ldwI => exact alike.load
    | ldba | ldbua | ldha | ldhua | ldwa => exact alike.load
    | stbR | stbI | sthR | sthI | stwR | stwI | stba | stha | stwa => exact alike.store
    | beq | bne | blo | bhs | bmi | bpl | bvs | bvc | bhi | bls | bge | blt | bgt | ble | bal => exact alike.effBcc
    | jal => exact alike.jumpAndLink (by rw [alike.pc])
    | jalrR | jalrI => exact alike.jumpAndLink (by rw [jalrTarget, jalrTarget, alike.reg, alike.src2])
    | jala => exact alike.jumpAndLink rfl
    | swi imm15 => exact alike.raise (trapSoftware imm15)
    | mfsrFlags rd =>
      have read : t.csr .flags = s.csr .flags := by rw [State.csr, State.csr, alike.flags]
      have written : UserAlike (s.setReg rd (s.csr .flags)) (t.setReg rd (t.csr .flags)) := read ▸ alike.setReg rd _
      exact ⟨written, rfl⟩
    | mtsrFlags rs1 =>
      have written : UserAlike (s.setCsr .flags (s.reg rs1)) (t.setCsr .flags (t.reg rs1)) :=
        alike.reg rs1 ▸ alike.setFlags _
      exact ⟨written, rfl⟩
    | nop => exact ⟨alike, rfl⟩
    | halt | rti => cases check
    | mfsrStatus | mfsrCause | mfsrEaddr | mfsrEpc | mfsrEflags | mfsrIpend => cases check
    | mtsrStatus | mtsrCause | mtsrEaddr | mtsrEpc | mtsrEflags => cases check

/-! ### The step on two such states -/

theorem UserAlike.runs (alike : UserAlike s t) (runs : Runs s) : Runs t := by
  obtain ⟨running, noRequest, masked⟩ := runs
  rw [Runs, alike.halted, alike.haltReq, alike.irq, alike.ie]
  exact ⟨running, noRequest, masked⟩

theorem UserAlike.step (alike : UserAlike s t) (user : s.status.priv = false) :
    ∃ s' t', step s = .next s' ∧ step t = .next t' ∧ UserAlike s' t' := by
  rcases boundary_cases s with ⟨halted, start⟩ | ⟨running, request, start⟩ |
    ⟨running, noRequest, pending, enabled, start⟩ | ⟨running, noRequest, notTaken, hfetch⟩
  · exact ⟨_, _, step_of_settled start, step_of_halted (alike.halted.trans halted), alike⟩
  · refine ⟨_, _, step_of_settled start,
      step_of_settled (boundary_of_haltReq (alike.halted.trans running) (alike.haltReq.trans request)), ?_⟩
    have cleared : UserAlike { s with haltReq := false } { t with haltReq := false } := { alike with haltReq := rfl }
    exact cleared.haltWith .externalHalt
  · refine ⟨_, _, step_of_settled start, step_of_settled (boundary_of_interrupt (alike.halted.trans running)
      (alike.haltReq.trans noRequest) (alike.irq.trans pending) (alike.ie.trans enabled)), ?_⟩
    rw [alike.pc]
    exact alike.vectorTrap trapExternal s.pc
  · have masked (irq : s.irq = true) : s.status.ie = false := Bool.eq_false_of_not_eq_true fun ie => notTaken ⟨irq, ie⟩
    have runs : Runs t := alike.runs ⟨running, noRequest, masked⟩
    have check : t.check t.pc 4 = s.check s.pc 4 := by rw [alike.pc, alike.check]
    rcases hfetch with ⟨k, fails, start⟩ | ⟨e, passes, undecoded, start⟩ | ⟨i, passes, decoded, start⟩
    · refine ⟨_, _, step_of_settled start, step_of_fetchFault runs (check.trans fails), ?_⟩
      rw [alike.pc]
      exact alike.takeSync _
    · rw [← alike.fetchWord] at undecoded
      have access : AccessOk t t.pc 4 := checkAccess_eq_none.mp (check.trans passes)
      refine ⟨_, _, step_of_settled start, step_of_undecoded runs access undecoded, ?_⟩
      rw [alike.fetchWord]
      exact alike.takeSync _
    · rw [← alike.fetchWord] at decoded
      exact ⟨_, _, step_of_run start, step_of_run (boundary_of_decoded runs (check.trans passes) decoded),
        (alike.execute user i).applyEffect⟩

end

/-- Settles O48: a state with another record is alike, and one step keeps alike what is alike in user mode. -/
theorem userStepReadsNoSupervisorRecord : Obligations.UserStepReadsNoSupervisorRecord := by
  intro s t u pie ppriv cause eaddr epc eflags user next next'
  obtain ⟨t', u', stepped, stepped', alike⟩ := (s.withRecord_userAlike pie ppriv cause eaddr epc eflags).step user
  cases next.symm.trans stepped
  cases next'.symm.trans stepped'
  exact alike.toSameUserView

end Sys2Proof.Machine

/-! The statements about spec/40_arithmetic.md and spec/42_branch.md that remain: ADD (R102), the division law (R118), and the conditions
after CMP (R161). -/

namespace Sys2Proof.Machine

/-! ### ADD -/

theorem addForms : FormsRun 0x00#6 .addR .addI (arith aluAdd) := by constructor <;> intros <;> rfl

/-- Settles O6, by the law of the addition. -/
theorem addResult : Obligations.AddResult := addForms.bothForms aluAdd_eq

/-! ### The conditions of Bcc (spec/42_branch.md R161) -/

/-- Settles O8, flag by flag where a condition compares two of them. -/
theorem conditionsReadTheFlags : Obligations.ConditionsReadTheFlags := by
  rintro ⟨c, z, n, v⟩
  refine ⟨rfl, rfl, rfl, rfl, rfl, rfl, rfl, rfl, rfl, rfl, ?_, ?_, ?_, ?_, rfl⟩ <;> cases n <;> cases v <;> rfl

/-- What holds of every completed flag-only instruction holds of both forms. -/
theorem BothFlagForms.mono {op : BitVec 6} {formR : RegIdx → RegIdx → Instr} {formI : RegIdx → BitVec 15 → Instr}
    {P Q : Word → Word → State → State → Prop} (forms : BothFlagForms op formR formI P)
    (imp : ∀ a b s t, P a b s t → Q a b s t) : BothFlagForms op formR formI Q := fun rs1 s =>
  ⟨fun rs2 => ((forms rs1 s).1 rs2).imp_right fun ⟨t, next, done⟩ => ⟨t, next, imp _ _ s t done⟩,
    fun imm15 => ((forms rs1 s).2 imm15).imp_right fun ⟨t, next, done⟩ => ⟨t, next, imp _ _ s t done⟩⟩

/-- The sign of a difference agrees with its signed overflow exactly when the exact difference is not negative. -/
theorem msb_sub_eq_overflow_iff (a b : Word) :
    ((a - b).msb = !fitsSigned (a.toInt - b.toInt)) ↔ b.toInt ≤ a.toInt := by
  have ha := a.isLt
  have hb := b.isLt
  rw [Bool.eq_iff_iff]
  simp only [fitsSigned, BitVec.msb_eq_decide, BitVec.toInt_eq_toNat_cond, BitVec.toNat_sub, Bool.not_eq_true',
    Bool.and_eq_false_iff, decide_eq_true_eq, decide_eq_false_iff_not]
  split <;> split <;> omega

/-- Settles O9: C and Z of a subtraction order its operands as naturals, N, V and Z as signed integers. -/
theorem conditionsAfterCompare : Obligations.ConditionsAfterCompare := by
  refine (cmpForms.bothFlagForms aluSub_eq).mono fun a b s t done => ?_
  have unsigned : a = b ↔ a.toNat = b.toNat := BitVec.toNat_inj.symm
  have signed : a = b ↔ a.toInt = b.toInt := BitVec.toInt_inj.symm
  rw [done.flags]
  simp only [condHolds, subFlags, Bool.not_eq_true', Bool.not_eq_false', Bool.or_eq_true, Bool.and_eq_true, bne_iff_ne,
    beq_iff_eq, decide_eq_true_eq, decide_eq_false_iff_not, msb_sub_eq_overflow_iff, ne_eq,
    true_and, and_true]
  refine ⟨Nat.not_lt, ?hi, ?ls, Int.not_le, ?gt, ?le⟩
  case hi | ls => rw [unsigned]; omega
  case gt | le => rw [signed]; omega

/-! ### The division law (spec/40_arithmetic.md R118) -/

/-- A division by a divisor other than 0 leaves its result in a destination other than r0. -/
theorem FormsRun.reg_of_divide {op : BitVec 6} {formR : RegIdx → RegIdx → RegIdx → Instr}
    {formI : RegIdx → RegIdx → BitVec 15 → Instr} {f : Word → Word → Word × Flags} {v : Word → Word → Word}
    {g : Word → Word → Flags} {rd rs1 rs2 : RegIdx} {s t : State} (forms : FormsRun op formR formI (divide f))
    (law : ∀ a b, f a b = (v a b, g a b)) (dest : rd ≠ 0#5) (divisor : s.reg rs2 ≠ 0x00000000#32)
    (next : exec (formR rd rs1 rs2) s = .next t) : t.reg rd = v (s.reg rs1) (s.reg rs2) := by
  obtain ⟨registerForm, _⟩ := forms.bothDivideForms law rd rs1 s
  obtain ⟨_, completes, _⟩ := registerForm rs2
  obtain ⟨t', next', done⟩ := completes divisor
  cases next.symm.trans next'
  obtain ⟨written, _⟩ := done.reg
  rw [written, if_neg dest]

section
variable (a b : Word)

/-- `sdiv` and `srem` satisfy the law but for the one quotient that does not fit. -/
theorem toInt_eq_mul_sdiv_add_srem (fits : ¬(a = 0x80000000#32 ∧ b = 0xFFFFFFFF#32)) :
    a.toInt = b.toInt * (a.sdiv b).toInt + (a.srem b).toInt := by
  rw [BitVec.toInt_sdiv_of_ne_or_ne a b (not_and_or.mp fits), BitVec.toInt_srem, Int.mul_tdiv_add_tmod]

theorem natAbs_srem_lt {b : Word} (divisor : b ≠ 0x00000000#32) : (a.srem b).toInt.natAbs < b.toInt.natAbs := by
  have positive : 0 < b.toInt.natAbs := Int.natAbs_pos.mpr fun zero => divisor (BitVec.toInt_inj.mp zero)
  rw [BitVec.toInt_srem, Int.natAbs_tmod]
  exact Nat.mod_lt _ positive

theorem srem_nonneg (h : 0 ≤ a.toInt) : 0 ≤ (a.srem b).toInt := by
  rw [BitVec.toInt_srem]
  exact Int.tmod_nonneg _ h

theorem srem_nonpos (h : a.toInt ≤ 0) : (a.srem b).toInt ≤ 0 := by
  have negated := Int.tmod_nonneg b.toInt (Int.neg_nonneg_of_nonpos h)
  rw [Int.neg_tmod] at negated
  rw [BitVec.toInt_srem]
  omega

end

/-- Settles O14: the laws of the truncated signed division and of the unsigned division. -/
theorem divisionLaw : Obligations.DivisionLaw := by
  intro q r rs1 rs2 s t u t' u' quotient remainder divisor div rem divu remu
  rw [divForms.reg_of_divide aluDiv_eq quotient divisor div, remForms.reg_of_divide aluRem_eq remainder divisor rem,
    divuForms.reg_of_divide aluDivu_eq quotient divisor divu, remuForms.reg_of_divide aluRemu_eq remainder divisor remu,
    BitVec.toNat_udiv, BitVec.toNat_umod]
  refine ⟨toInt_eq_mul_sdiv_add_srem _ _, natAbs_srem_lt _ divisor, srem_nonneg _ _, srem_nonpos _ _,
    (Nat.div_add_mod _ _).symm, Nat.mod_lt _ (Nat.pos_of_ne_zero fun zero => divisor (BitVec.eq_of_toNat_eq zero))⟩

end Sys2Proof.Machine

/-! The statement about spec/41_memory_ops.md that remains (R148), and those about the assembler (spec/30_encoding.md R94-R96). -/

namespace Sys2Proof.Machine

/-! ### A store and then a load (spec/41_memory_ops.md R148) -/

/-- A word is its four bytes. -/
theorem eq_of_bytes_eq {x y : Word} (bytes : ∀ k, k < 4 → x.extractLsb' (8 * k) 8 = y.extractLsb' (8 * k) 8) : x = y := by
  apply BitVec.eq_of_getLsbD_eq
  intro i hi
  have bit := congrArg (·.getLsbD (i % 8)) (bytes (i / 8) (by omega))
  simpa [Nat.mod_lt, Nat.div_add_mod] using bit

section
variable {s t u : State}

/-- What a store of `n` bytes wrote is read back modulo 2^(8n). -/
theorem StoreDone.readLE_eq {ea : Word} {n : Nat} {v : Word} (done : StoreDone ea n v s t) :
    Memory.readLE t.mem ea.toNat n = (v.setWidth (8 * n)).setWidth 32 := by
  refine eq_of_bytes_eq fun k hk => ?_
  rw [Memory.readLE_byte _ _ _ _ hk]
  apply BitVec.eq_of_getLsbD_eq
  intro i hi
  have inWord : 8 * k + i < 32 := by omega
  split
  next stored =>
    have inStored : 8 * k + i < 8 * n := by omega
    rw [done.stored k stored]
    simp [hi, inWord, inStored]
  next past =>
    have pastStored : ¬8 * k + i < 8 * n := by omega
    simp [pastStored]

theorem State.ea_congr (same : SameRegs s t) (addr : MemAddr) : t.ea addr = s.ea addr := by
  cases addr with
  | base rs1 src => cases src <;> simp only [State.ea, State.src2, same _]
  | abs => rfl

variable {i j : Instr} {rs rd rs1 : RegIdx} {imm15 : BitVec 15}

/-- A store and then a load of its width through the same base and offset, whatever the extension. -/
theorem reg_of_store_of_load (w : Width) (e : Ext) (canonical : Memory.wf s.cfg.memCapacity s.mem = true) (dest : rd ≠ 0#5)
    (ok : AccessOk s (s.reg rs1 + imm15.signExtend 32) (Width.bytes w)) (stores : exec i s = .next t)
    (loads : exec j t = .next u) (storeRun : execute i s = store w rs (.base rs1 (.imm imm15)) s)
    (loadRun : execute j t = load w e rd (.base rs1 (.imm imm15)) t) :
    u.reg rd = extend w e (((s.reg rs).setWidth (8 * Width.bytes w)).setWidth 32) := by
  have stored := (store_accessCases canonical storeRun).done_of_ok ok stores
  have ea := State.ea_congr stored.regs (.base rs1 (.imm imm15))
  have ok' : AccessOk t (t.ea (.base rs1 (.imm imm15))) (Width.bytes w) := by
    rw [AccessOk, ea, stored.control.cfg]
    exact ok
  have loaded := (load_accessCases (value := fun m a => extend w e (Memory.readLE m a (Width.bytes w))) loadRun
    fun _ _ => rfl).done_of_ok ok' loads
  obtain ⟨written, _⟩ := loaded.reg
  rw [written, if_neg dest, ea]
  exact congrArg (extend w e) stored.readLE_eq

end

/-! What a load extends is what was stored of the value. -/

theorem extend_none_stored (v : Word) : extend .word .none ((v.setWidth (8 * Width.bytes .word)).setWidth 32) = v := by
  rw [extend, Width.bytes, BitVec.setWidth_eq, BitVec.setWidth_eq]

theorem extend_zero_stored (w : Width) (v : Word) :
    extend w .zero ((v.setWidth (8 * Width.bytes w)).setWidth 32) = BitVec.ofNat 32 (v.toNat % 2 ^ (8 * Width.bytes w)) := by
  have number (n : Nat) : (v.setWidth n).setWidth 32 = BitVec.ofNat 32 (v.toNat % 2 ^ n) := by
    rw [← BitVec.toNat_setWidth, ← BitVec.ofNat_toNat]
  cases w with
  | byte | half => rw [extend, Width.bytes, extractLsb'_setWidth_of_le _ (by decide), number]
  | word => exact number 32

theorem extend_sign_stored (w : Width) (v : Word) :
    extend w .sign ((v.setWidth (8 * Width.bytes w)).setWidth 32) = (v.setWidth (8 * Width.bytes w)).signExtend 32 := by
  cases w with
  | byte | half => rw [extend, Width.bytes, extractLsb'_setWidth_of_le _ (by decide)]
  | word => rw [extend, Width.bytes, BitVec.setWidth_eq, BitVec.signExtend_eq]

/-- Settles O19: the bytes are read back, and each load extends them its way. -/
theorem storeThenLoadReturnsValue : Obligations.StoreThenLoadReturnsValue := by
  intro rs rd rs1 imm15 s t u canonical dest
  refine ⟨fun ok stores loads => ?_, fun ok stores => ⟨fun loads => ?_, fun loads => ?_⟩,
    fun ok stores => ⟨fun loads => ?_, fun loads => ?_⟩⟩
  · exact (reg_of_store_of_load .word .none canonical dest ok stores loads rfl rfl).trans (extend_none_stored _)
  · exact (reg_of_store_of_load .half .zero canonical dest ok stores loads rfl rfl).trans (extend_zero_stored .half _)
  · exact (reg_of_store_of_load .half .sign canonical dest ok stores loads rfl rfl).trans (extend_sign_stored .half _)
  · exact (reg_of_store_of_load .byte .zero canonical dest ok stores loads rfl rfl).trans (extend_zero_stored .byte _)
  · exact (reg_of_store_of_load .byte .sign canonical dest ok stores loads rfl rfl).trans (extend_sign_stored .byte _)

end Sys2Proof.Machine

/-! The statements about the assembler (spec/30_encoding.md R94-R96): the target that a transfer's line names, and `LI`. -/

namespace Sys2Proof.Machine

/-! ### Literals (spec/30_encoding.md R95) -/

/-- A literal in the signed range of its field is read back by sign extension. -/
theorem signExtend_literal {k : Nat} {n : Int} (lower : -(2 ^ (k - 1) : Int) ≤ n) (upper : n < 2 ^ (k - 1)) (pos : 0 < k) :
    (literal k n).signExtend 32 = BitVec.ofInt 32 n := by
  rw [BitVec.signExtend, literal, BitVec.toInt_ofInt_eq_self pos lower upper]

/-- A literal in the unsigned range of its field is read back by zero extension. -/
theorem setWidth_literal {k : Nat} {n : Int} (lower : 0 ≤ n) (upper : n < 2 ^ k) :
    (literal k n).setWidth 32 = BitVec.ofInt 32 n := by
  obtain ⟨m, rfl⟩ := Int.eq_ofNat_of_zero_le lower
  have upper : m < 2 ^ k := by exact_mod_cast upper
  rw [literal, BitVec.ofInt_natCast, BitVec.ofInt_natCast]
  apply BitVec.eq_of_toNat_eq
  simp [Nat.mod_eq_of_lt upper]

/-! ### The targets of assembled transfers -/

/-- An address that is a number of words off pc. -/
theorem pc_add_words (pc : Word) {target words : Int} (offset : target - pc.toNat = words * 4) :
    pc + BitVec.ofInt 32 words * 4#32 = BitVec.ofInt 32 target := by
  have base : pc = BitVec.ofInt 32 pc.toNat := by rw [BitVec.ofInt_natCast, BitVec.ofNat_toNat, BitVec.setWidth_eq]
  calc pc + BitVec.ofInt 32 words * 4#32
    _ = pc + BitVec.ofInt 32 (words * 4) := by rw [BitVec.ofInt_mul]; rfl
    _ = BitVec.ofInt 32 pc.toNat + BitVec.ofInt 32 (words * 4) := congrArg (· + _) base
    _ = BitVec.ofInt 32 target := by rw [← BitVec.ofInt_add, ← offset, add_sub_cancel]

section
variable {pc : Word} {target : Int}

theorem bccTarget_literal (range : bccOffsetInRange (target - pc.toNat) = true) :
    bccTarget pc (literal 22 ((target - pc.toNat) / 4)) = BitVec.ofInt 32 target := by
  simp only [bccOffsetInRange, Bool.and_eq_true, decide_eq_true_eq] at range
  obtain ⟨⟨aligned, lower⟩, upper⟩ := range
  rw [bccTarget_eq, signExtend_literal (by omega) (by omega) (by decide)]
  exact pc_add_words pc (by omega)

theorem jalTarget_literal (range : jalOffsetInRange (target - pc.toNat) = true) :
    jalTarget pc (literal 21 ((target - pc.toNat) / 4)) = BitVec.ofInt 32 target := by
  simp only [jalOffsetInRange, Bool.and_eq_true, decide_eq_true_eq] at range
  obtain ⟨⟨aligned, lower⟩, upper⟩ := range
  rw [jalTarget_eq, signExtend_literal (by omega) (by omega) (by decide)]
  exact pc_add_words pc (by omega)

theorem jalaTarget_literal (range : jalaAddrInRange target = true) :
    jalaTarget (literal 21 (target / 4)) = BitVec.ofInt 32 target := by
  simp only [jalaAddrInRange, Bool.and_eq_true, decide_eq_true_eq] at range
  obtain ⟨⟨aligned, lower⟩, upper⟩ := range
  have four : 4#32 = BitVec.ofInt 32 4 := rfl
  rw [jalaTarget_eq, setWidth_literal (by omega) (by omega), four, ← BitVec.ofInt_mul]
  congr 1
  omega

theorem assemble_eq_some {a : Asm} {i : Instr} (h : assemble pc a = some i) :
    Asm.WellFormed pc a = true ∧ assembleUnchecked pc a = some i := by
  unfold assemble at h
  split at h
  next wellFormed => exact ⟨wellFormed, h⟩
  next => cases h

end

/-- Settles O59: in the ranges of R95 the literal gives the target back, and the row transfers to it. -/
theorem assembledTransfersReachTheirTarget : Obligations.AssembledTransfersReachTheirTarget := by
  refine fun target i s => ⟨fun c line => ?_, fun rd line => ?_, fun rd line => ?_⟩
  · obtain ⟨range, row⟩ := assemble_eq_some line
    cases row
    refine ⟨fun taken => ?_, exec_assembleBcc_of_not_taken _⟩
    exact bccTarget_literal range ▸ assembleBcc_accessCases_of_taken _ taken
  · obtain ⟨range, row⟩ := assemble_eq_some line
    cases row
    exact jumpAndLink_linkCases (jalTarget_literal range ▸ rfl)
  · obtain ⟨range, row⟩ := assemble_eq_some line
    cases row
    exact jumpAndLink_linkCases (jalaTarget_literal range ▸ rfl)

/-! ### `LI` (spec/30_encoding.md R96) -/

theorem assembleAll_cons_eq_some {pc : Word} {a : Asm} {as : List Asm} {is : List Instr}
    (h : assembleAll pc (a :: as) = some is) :
    ∃ i is', assemble pc a = some i ∧ assembleAll (pc + 4#32) as = some is' ∧ is = i :: is' := by
  unfold assembleAll at h
  split at h
  next i is' first rest => exact ⟨i, is', first, rest, (Option.some.inj h).symm⟩
  next => cases h

/-- The two expansions of `LI`, assembled. -/
theorem assemblePseudo_li {pc : Word} {rd : RegIdx} {imm : Int} {is : List Instr}
    (h : assemblePseudo pc (.li rd imm) = some is) :
    (imm15InRange imm = true ∧ is = [.addI rd 0#5 (literal 15 imm)]) ∨
    is = [.lui rd (literal 21 ((BitVec.ofInt 32 imm).extractLsb' 11 21).toNat),
      .orI rd rd (literal 15 ((BitVec.ofInt 32 imm).extractLsb' 0 11).toNat)] := by
  unfold assemblePseudo at h
  split at h
  next lines expansion =>
    unfold expandPseudo at expansion
    dsimp only at expansion
    split at expansion
    next inRange =>
      cases expansion
      obtain ⟨i, is', first, rest, rfl⟩ := assembleAll_cons_eq_some h
      cases rest
      cases (assemble_eq_some first).2
      exact .inl ⟨inRange, rfl⟩
    next =>
      split at expansion
      next =>
        cases expansion
        obtain ⟨i, is', first, rest, rfl⟩ := assembleAll_cons_eq_some h
        obtain ⟨j, is'', second, rest', rfl⟩ := assembleAll_cons_eq_some rest
        cases rest'
        cases (assemble_eq_some first).2
        cases (assemble_eq_some second).2
        exact .inr rfl
      next => cases expansion
  next => cases h

section
variable {rd : RegIdx} {v v' : Word} {s t u : State}

/-- Of two writes to one register the second stays. -/
theorem WroteReg.trans (first : WroteReg rd v s t) (second : WroteReg rd v' t u) : WroteReg rd v' s u := by
  obtain ⟨_, others⟩ := first
  obtain ⟨written, others'⟩ := second
  exact ⟨written, fun r other => (others' r other).trans (others r other)⟩

/-- What is written to register 0 is discarded, whatever it is. -/
theorem WroteReg.congr (wrote : WroteReg rd v s t) (same : rd ≠ 0#5 → v = v') : WroteReg rd v' s t := by
  obtain ⟨written, others⟩ := wrote
  refine ⟨written.trans ?_, others⟩
  split
  · rfl
  · next dest => exact same dest

end

/-- Bits 31:11 in place, as LUI puts them, and bits 10:0 make the word. -/
theorem high_or_low_eq (v : Word) : luiImm (v.extractLsb' 11 21) ||| (v.extractLsb' 0 11).setWidth 32 = v := by
  apply BitVec.eq_of_getLsbD_eq
  intro i hi
  simp only [luiImm]
  interval_cases i <;> simp

theorem literal_toNat {k : Nat} (x : BitVec k) : literal k x.toNat = x := by
  rw [literal, BitVec.ofInt_natCast, BitVec.ofNat_toNat, BitVec.setWidth_eq]

/-- The low half of `LI`'s constant is below 2^11, so its sign extension is its zero extension. -/
theorem signExtend_literal_low (x : BitVec 11) : (literal 15 x.toNat).signExtend 32 = x.setWidth 32 := by
  have small := x.isLt
  rw [signExtend_literal (by omega) (by omega) (by decide), BitVec.ofInt_natCast, BitVec.ofNat_toNat]

section
variable {rd : RegIdx} {s t : State}

/-- A row of the arithmetic family with an immediate, as one register write. -/
theorem FormsRun.exists_wroteReg {op : BitVec 6} {formR : RegIdx → RegIdx → RegIdx → Instr}
    {formI : RegIdx → RegIdx → BitVec 15 → Instr} {f : Word → Word → Word × Flags} {v : Word → Word → Word}
    {g : Word → Word → Flags} (forms : FormsRun op formR formI (arith f)) (law : ∀ a b, f a b = (v a b, g a b))
    (rd rs1 : RegIdx) (imm15 : BitVec 15) (s : State) :
    ∃ t, exec (formI rd rs1 imm15) s = .next t ∧ WroteReg rd (v (s.reg rs1) (imm15.signExtend 32)) s t := by
  obtain ⟨_, immediate⟩ := forms.bothForms law rd rs1 s
  obtain ⟨_, t, next, done⟩ := immediate imm15
  exact ⟨t, next, done.reg⟩

theorem execAll_cons_of_next {i : Instr} {is : List Instr} (next : exec i s = .next t) :
    execAll (i :: is) s = execAll is t := by
  rw [execAll, next]

end

/-- The one-word expansion: the literal added to register 0. -/
theorem execAll_addI_literal {imm : Int} (inRange : imm15InRange imm = true) (rd : RegIdx) (s : State) :
    ∃ t, execAll [.addI rd 0#5 (literal 15 imm)] s = .next t ∧ WroteReg rd (BitVec.ofInt 32 imm) s t := by
  simp only [imm15InRange, Bool.and_eq_true, decide_eq_true_eq] at inRange
  obtain ⟨lower, upper⟩ := inRange
  obtain ⟨t, next, wrote⟩ := addForms.exists_wroteReg aluAdd_eq rd 0#5 (literal 15 imm) s
  refine ⟨t, execAll_cons_of_next next, wrote.congr fun _ => ?_⟩
  rw [State.reg_zero, BitVec.zero_add, signExtend_literal (by omega) (by omega) (by decide)]

/-- The two-word expansion: LUI writes bits 31:11, OR adds bits 10:0. -/
theorem execAll_lui_orI (v : Word) (rd : RegIdx) (s : State) :
    ∃ t, execAll [.lui rd (literal 21 (v.extractLsb' 11 21).toNat), .orI rd rd (literal 15 (v.extractLsb' 0 11).toNat)] s
      = .next t ∧ WroteReg rd v s t := by
  obtain ⟨_, t, high, highDone⟩ := luiResult rd (literal 21 (v.extractLsb' 11 21).toNat) s
  obtain ⟨u, low, lowWrote⟩ :=
    orForms.exists_wroteReg (fun a b => aluLogic_eq (a ||| b)) rd rd (literal 15 (v.extractLsb' 0 11).toNat) t
  refine ⟨u, (execAll_cons_of_next high).trans (execAll_cons_of_next low),
    highDone.reg.trans (lowWrote.congr fun dest => ?_)⟩
  obtain ⟨written, _⟩ := highDone.reg
  rw [written, if_neg dest, signExtend_literal_low, literal_toNat, ← luiImm_eq, high_or_low_eq]

/-- Settles O60, by its two expansions. -/
theorem loadImmediateBuildsTheConstant : Obligations.LoadImmediateBuildsTheConstant := by
  intro pc rd imm is s assembled
  rcases assemblePseudo_li assembled with ⟨inRange, rfl⟩ | rfl
  · exact execAll_addI_literal inRange rd s
  · exact execAll_lui_orI (BitVec.ofInt 32 imm) rd s

end Sys2Proof.Machine
